-- ==== Sys2Proof/Word.lean ====
section
/-! DEFINITION. The two word types of the block: a buffer element and a host-bus register (00_scope.md R10). -/

namespace Sys2Proof

/-- One element of a buffer: 8 bits (R10). -/
abbrev Byte := BitVec 8

/-- One host-bus register: 32 bits, bit 0 least significant (R10, R11). -/
abbrev Word := BitVec 32

end Sys2Proof
end

