-- ==== Sys2Proof/Config.lean ====
section
/-! DEFINITION. The block's parameters (00_scope.md R9) and the model's free values.

A parameter the spec fixes is a plain constant. A parameter the spec leaves OPEN is an opaque constant, shaped by a
definition so that it ranges over exactly the values the spec allows: a proof can use the spec's bounds and nothing
else. A value the spec calls unspecified is an opaque function, applied to a counter of the state (a fresh value at
each draw). -/

namespace Sys2Proof.Config

/-- `DELIM`, the frame delimiter and the byte `7D 02` restores (R9, R81, decision D3). -/
def delim : Byte := 0x7E#8

/-- `ESC`, the escape introducer (R9). -/
def esc : Byte := 0x7D#8

/-- The byte after `ESC` that spells an escaped `ESC` (R70). -/
def tagEsc : Byte := 0x01#8

/-- The byte after `ESC` that spells an escaped `DELIM` (R70). -/
def tagDelim : Byte := 0x02#8

/-- `LOCATION_ID`, the message type of the location report (R9). -/
def locationId : BitVec 16 := 0x0200#16

/-- `HDR_LEN`, the bytes the header fields need (R9). -/
def hdrLen : Nat := 13

/-- `MIN_FRAME_LEN`, the bytes a complete frame needs (R9). -/
def minFrameLen : Nat := 15

/-- `BODY_OFF`, the offset of the first body byte (R9, 90_conflicts.md C2). -/
def bodyOff : Nat := 13

/-- `BCD_MAX_CNT`, the largest byte count of one BCD command (R9). -/
def bcdMaxCnt : Nat := 8

/-- What is open about `RECOGNIZED_IDS`: its members beside the two the spec settles (R112, decision D4). -/
opaque recognizedOther : BitVec 16 → Bool

/-- Membership in `RECOGNIZED_IDS`: any set of 16-bit values with `0x0100` in it and `0x00FF` not (R9, R112). -/
def recognized (t : BitVec 16) : Bool :=
  t == 0x0100#16 || (t != 0x00FF#16 && recognizedOther t)

/-- What is open about `MAX_IN_LEN`. -/
opaque maxInLenChoice : Nat

/-- `MAX_IN_LEN`, the capacity of each buffer: any value from 15 to 65535 (R9, decision D5). -/
def maxInLen : Nat := maxInLenChoice % 65521 + 15

/-- What is open about `BASE`. -/
opaque baseChoice : Nat

/-- `BASE`, the platform's base address of the block: any multiple of `0x40000` (R9, R50, decision D7). -/
def base : Nat := baseChoice * 0x40000

/-- `LATENCY` as one deterministic machine can show it: how many of the host's accesses come between an accepted START
and the engine's step. The spec leaves the number of cycles open but finite, and lets it depend on the command and the
data (R9, R141); the arguments are the number of the command since reset, its `OP`, `IN_LEN`, `BCD_ARG` as
`CNT` above `OFF`, and the two buffers. -/
opaque latency : Nat → BitVec 4 → BitVec 16 → BitVec 20 → List (Nat × Byte) → List (Nat × Byte) → Nat

/-- An unspecified value a host read returns: a draw under no law (R53, R55, R138). The arguments are the number of
the draw and the offset read. -/
opaque draw : Nat → BitVec 18 → Word

/-- What the RAM behind `OUT[k]` holds while no command has written it: unspecified (R48). No rule reads such a byte
in a state that a run reaches. -/
opaque outUnwritten : Nat → Byte

end Sys2Proof.Config
end

