-- ==== Sys2Proof/Syntax.lean ====
section
/-! DEFINITION. The instructions: one constructor of `Instr` for each row of spec/opcode_table.json, the forms they are
encoded in (30_encoding.md R67), and what the host can present to the block. -/

namespace Sys2Proof

/-- The widths a host-bus access may have: 1, 2 or 4 bytes (R51). -/
inductive Width where
  | one
  | two
  | four
  deriving DecidableEq, Repr

/-- A host-bus access `(dir, off, w, data)` (R51): the offset from `BASE` is in `0..0x3FFFF`, and a write of `w` bytes
carries `8w` bits. -/
inductive Access where
  | read (off : BitVec 18) (w : Width)
  | write1 (off : BitVec 18) (data : Byte)
  | write2 (off : BitVec 18) (data : BitVec 16)
  | write4 (off : BitVec 18) (data : Word)
  deriving DecidableEq, Repr

/-- The two buffer windows of the host bus (R50). -/
inductive Window where
  | inp
  | out
  deriving DecidableEq, Repr

/-- The commands a mnemonic names (R68). -/
inductive Command where
  | unescape
  | envelope
  | decodeFrame
  | bcd
  deriving DecidableEq, Repr

/-- A line of a host program (R79): a pseudo-instruction with its operands. BCDARG's are all the numbers for which its
expansion `(cnt << 16) | off` is an `imm32` (R78). -/
inductive HostLine where
  | loadin (bytes : List Byte)
  | cmd (c : Command)
  | cmdi (c : Command)
  | waitdone
  | ack
  | bcdarg (off : Word) (cnt : BitVec 16)
  deriving DecidableEq, Repr

/-- What the environment can present to the block, in the order it presents it: a host-bus access (R51), a
command word written to `CTRL` in format CTRL (R67), a pseudo-instruction of a host program (R79), or the reset
input (R133). -/
inductive HostInput where
  | access (a : Access)
  | ctrlWord (v : Word)
  | line (l : HostLine)
  | rst
  deriving DecidableEq, Repr

/-- The tokens of the raw chunk (R70): the unescaper's micro-operations. -/
inductive Token where
  | esc7d
  | escDelim
  | lit7d
  | lit (b : Byte)
  deriving DecidableEq, Repr

/-- The formats of spec/opcode_table.json (R67, R79). -/
inductive Format where
  | ctrl
  | esctok
  | bus
  | pseudo
  deriving DecidableEq, Repr

/-- The instructions, in the order of spec/opcode_table.json. -/
inductive Instr where
  /-- UNESCAPE, `0x00000101/0x0000010F` (R85). -/
  | unescape
  /-- ENVELOPE, `0x00000102/0x0000010F` (R94). -/
  | envelope
  /-- DECODE_FRAME, `0x00000103/0x0000010F` (R110). -/
  | decodeFrame
  /-- BCD, `0x00000104/0x0000010F` (R92). -/
  | bcd
  /-- The reserved `OP` 0, `0x00000100/0x0000010F` (R120). -/
  | illegalOp0
  /-- The reserved `OP` 5, `0x00000105/0x0000010F` (R120). -/
  | illegalOp5
  /-- The reserved `OP` values 6 and 7, `0x00000106/0x0000010E`: `low` is `OP[0]` (R120). -/
  | illegalOp6to7 (low : BitVec 1)
  /-- The reserved `OP` values 8 to 15, `0x00000108/0x00000108`: `low` is `OP[2:0]` (R120). -/
  | illegalOp8to15 (low : BitVec 3)
  /-- A `CTRL` write without START, `0x00000000/0x00000100` (R52). -/
  | ctrlWriteNoStart (op : BitVec 4) (ie : Bool)
  /-- ESC_7D, `7D 01` (R80). -/
  | esc7d
  /-- ESC_DELIM, `7D 02` (R81). -/
  | escDelim
  /-- LIT_7D, a `7D` that opens no pair (R82). -/
  | lit7d
  /-- LIT, any other byte (R83). -/
  | lit (b : Byte)
  /-- WR: a host register write (R52). -/
  | wr (off : BitVec 18) (data : Word)
  /-- RD: a host register read (R53). -/
  | rd (off : BitVec 18)
  /-- WRB: a host byte write to `IN[k]` (R54). -/
  | wrb (k : BitVec 16) (data : Byte)
  /-- RDB: a host byte read of `IN[k]` or `OUT[k]` (R55). -/
  | rdb (win : Window) (k : BitVec 16)
  /-- LOADIN b0 … b(m-1) (R79). -/
  | loadin (bytes : List Byte)
  /-- CMD op (R79). -/
  | cmd (c : Command)
  /-- CMDI op (R79). -/
  | cmdi (c : Command)
  /-- WAITDONE (R79). -/
  | waitdone
  /-- ACK (R79). -/
  | ack
  /-- BCDARG off, cnt (R79): any numbers for which `(cnt << 16) | off` is an `imm32` (R78). -/
  | bcdarg (off : Word) (cnt : BitVec 16)
  deriving DecidableEq, Repr

/-- A token as the instruction of its row. -/
def Token.toInstr : Token → Instr
  | .esc7d => .esc7d
  | .escDelim => .escDelim
  | .lit7d => .lit7d
  | .lit b => .lit b

/-- The format of an instruction's row in spec/opcode_table.json. -/
def Instr.format : Instr → Format
  | .unescape => .ctrl
  | .envelope => .ctrl
  | .decodeFrame => .ctrl
  | .bcd => .ctrl
  | .illegalOp0 => .ctrl
  | .illegalOp5 => .ctrl
  | .illegalOp6to7 _ => .ctrl
  | .illegalOp8to15 _ => .ctrl
  | .ctrlWriteNoStart _ _ => .ctrl
  | .esc7d => .esctok
  | .escDelim => .esctok
  | .lit7d => .esctok
  | .lit _ => .esctok
  | .wr _ _ => .bus
  | .rd _ => .bus
  | .wrb _ _ => .bus
  | .rdb _ _ => .bus
  | .loadin _ => .pseudo
  | .cmd _ => .pseudo
  | .cmdi _ => .pseudo
  | .waitdone => .pseudo
  | .ack => .pseudo
  | .bcdarg _ _ => .pseudo

end Sys2Proof
end

