-- ==== Sys2Proof/WellFormed.lean ====
section
/-! DEFINITION. When a term of `Instr` is an instruction of the spec: the conditions of 30_encoding.md that the types
of the operands do not carry already. -/

namespace Sys2Proof

/-- The offset of a register access of the table's WR and RD rows: below `0x10000` and a multiple of 4 (R52, R53). -/
def registerForm (off : BitVec 18) : Bool :=
  decide (off.toNat < 0x10000) && off.toNat % 4 == 0

/-- The well-formedness check. LIT holds any byte but `ESC` (R70); WR and RD name a register offset (R52, R53).
R79 bounds no operand of a pseudo-instruction. -/
def Instr.wellFormed : Instr → Bool
  | .unescape => true
  | .envelope => true
  | .decodeFrame => true
  | .bcd => true
  | .illegalOp0 => true
  | .illegalOp5 => true
  | .illegalOp6to7 _ => true
  | .illegalOp8to15 _ => true
  | .ctrlWriteNoStart _ _ => true
  | .esc7d => true
  | .escDelim => true
  | .lit7d => true
  | .lit b => b != Config.esc
  | .wr off _ => registerForm off
  | .rd off => registerForm off
  | .wrb _ _ => true
  | .rdb _ _ => true
  | .loadin _ => true
  | .cmd _ => true
  | .cmdi _ => true
  | .waitdone => true
  | .ack => true
  | .bcdarg _ _ => true

/-- The check as a proposition. -/
abbrev Instr.WellFormed (i : Instr) : Prop := i.wellFormed = true

end Sys2Proof
end

