-- ==== Sys2Proof/Decode.lean ====
section
/-! DEFINITION. The decoder of the block's four instruction formats (30_encoding.md R67 to R71, R78, R79), total on
anything, and after it the encoder. The formats FRAME, PROP and BCD of R67 are data layouts: they are read in
Machine/Operands.lean and Machine/Flags.lean. -/

namespace Sys2Proof

/-- An encoded instruction, under the name of its format (R67): a command word, the raw bytes at the scan cursor, a
bus transaction, or a line of a host program. -/
inductive Code where
  | ctrl (v : Word)
  | esctok (bytes : List Byte)
  | bus (a : Access)
  | pseudo (l : HostLine)
  deriving DecidableEq, Repr

/-- The format an encoded instruction is in. -/
def Code.format : Code → Format
  | .ctrl _ => .ctrl
  | .esctok _ => .esctok
  | .bus _ => .bus
  | .pseudo _ => .pseudo

/-- Why an encoded form is no instruction. -/
inductive DecodeError where
  /-- No byte of the chunk is left (R70). -/
  | emptyStream
  /-- A host access that is none of WR, RD, WRB and RDB: R56 gives it its (empty) effect. -/
  | otherAccess
  deriving DecidableEq, Repr

/-- The `OP` field of a command word, `v[3:0]` (R68). -/
def wordOp (v : Word) : BitVec 4 := v.extractLsb' 0 4

/-- The START bit of a command word, `v[8]` (R68). -/
def wordStart (v : Word) : Bool := v.getLsbD 8

/-- The IE bit of a command word, `v[16]` (R68). -/
def wordIe (v : Word) : Bool := v.getLsbD 16

/-- A command word with reserved bits 0 (R68). -/
def commandWord (op : BitVec 4) (start ie : Bool) : Word :=
  0#15 ++ BitVec.ofBool ie ++ 0#7 ++ BitVec.ofBool start ++ 0#4 ++ op

/-- The command an `OP` value issues (R68, R69). -/
def decodeOp (op : BitVec 4) : Instr :=
  if op = 1#4 then .unescape
  else if op = 2#4 then .envelope
  else if op = 3#4 then .decodeFrame
  else if op = 4#4 then .bcd
  else if op = 0#4 then .illegalOp0
  else if op = 5#4 then .illegalOp5
  else if op = 6#4 ∨ op = 7#4 then .illegalOp6to7 (op.extractLsb' 0 1)
  else .illegalOp8to15 (op.extractLsb' 0 3)

/-- Format CTRL: with START the word issues the command of its `OP`, without START it only stores OP and IE (R68). -/
def decodeCtrl (v : Word) : Instr :=
  if wordStart v then decodeOp (wordOp v) else .ctrlWriteNoStart (wordOp v) (wordIe v)

/-- Format ESCTOK: the first row of R70's table that matches, `b1` absent at the end of the chunk. -/
def decodeToken (b0 : Byte) (b1 : Option Byte) : Token :=
  if b0 = Config.esc ∧ b1 = some Config.tagEsc then .esc7d
  else if b0 = Config.esc ∧ b1 = some Config.tagDelim then .escDelim
  else if b0 = Config.esc then .lit7d
  else .lit b0

/-- Format ESCTOK on the raw bytes that begin at the cursor (R70, R71). -/
def decodeStream : List Byte → Except DecodeError Instr
  | [] => .error .emptyStream
  | [b0] => .ok (decodeToken b0 none).toInstr
  | b0 :: b1 :: _ => .ok (decodeToken b0 (some b1)).toInstr

/-- The buffer window an offset lies in, by its bits 17:16 (R50). -/
def windowOf (off : BitVec 18) : Option Window :=
  if off.extractLsb' 16 2 = 1#2 then some .inp
  else if off.extractLsb' 16 2 = 2#2 then some .out
  else none

/-- The index of an offset inside its window (R50). -/
def windowIndex (off : BitVec 18) : BitVec 16 := off.extractLsb' 0 16

/-- The offset of index `k` in a window (R50). -/
def windowOffset : Window → BitVec 16 → BitVec 18
  | .inp, k => 1#2 ++ k
  | .out, k => 2#2 ++ k

/-- Format BUS: the four transactions of R78. Any other access is no instruction of the table (R56). -/
def decodeBus : Access → Except DecodeError Instr
  | .write4 off d => if registerForm off then .ok (.wr off d) else .error .otherAccess
  | .write2 _ _ => .error .otherAccess
  | .write1 off d => if windowOf off = some .inp then .ok (.wrb (windowIndex off) d) else .error .otherAccess
  | .read off .four => if registerForm off then .ok (.rd off) else .error .otherAccess
  | .read _ .two => .error .otherAccess
  | .read off .one =>
    match windowOf off with
    | some win => .ok (.rdb win (windowIndex off))
    | none => .error .otherAccess

/-- `code(op)`: the OP value of a command's mnemonic (R68, R79). -/
def commandCode : Command → BitVec 4
  | .unescape => 1#4
  | .envelope => 2#4
  | .decodeFrame => 3#4
  | .bcd => 4#4

/-- Format PSEUDO: every line of R79 is an instruction. -/
def decodeLine : HostLine → Instr
  | .loadin bytes => .loadin bytes
  | .cmd c => .cmd c
  | .cmdi c => .cmdi c
  | .waitdone => .waitdone
  | .ack => .ack
  | .bcdarg off cnt => .bcdarg off cnt

/-- The decoder: the instruction an encoded form stands for, or why it is none. -/
def decode : Code → Except DecodeError Instr
  | .ctrl v => .ok (decodeCtrl v)
  | .esctok bytes => decodeStream bytes
  | .bus a => decodeBus a
  | .pseudo l => .ok (decodeLine l)

/-- The instruction the decoder reads from `nbits` bits numbered as spec/opcode_table.json numbers them: a 32-bit
command word (format CTRL), or a token window with `b0` in bits 15:8 and `b1` in bits 7:0 (format ESCTOK; 8 bits are a
`b0` with `b1` absent). No other row of the table has bits. -/
def decodeTableWord (nbits w : Nat) : Option Instr :=
  if nbits = 32 then some (decodeCtrl (BitVec.ofNat 32 w))
  else if nbits = 16 then some (decodeToken (BitVec.ofNat 8 (w / 256)) (some (BitVec.ofNat 8 w))).toInstr
  else if nbits = 8 then some (decodeToken (BitVec.ofNat 8 w) none).toInstr
  else none

/-- The encoder, from the match values of R68 and R70, the tuples of R78 and the lines of R79. Bits the spec ignores
are written 0. -/
def encode : Instr → Code
  | .unescape => .ctrl 0x00000101#32
  | .envelope => .ctrl 0x00000102#32
  | .decodeFrame => .ctrl 0x00000103#32
  | .bcd => .ctrl 0x00000104#32
  | .illegalOp0 => .ctrl 0x00000100#32
  | .illegalOp5 => .ctrl 0x00000105#32
  | .illegalOp6to7 low => .ctrl (0x00000106#32 ||| low.setWidth 32)
  | .illegalOp8to15 low => .ctrl (0x00000108#32 ||| low.setWidth 32)
  | .ctrlWriteNoStart op ie => .ctrl (commandWord op false ie)
  | .esc7d => .esctok [0x7D#8, 0x01#8]
  | .escDelim => .esctok [0x7D#8, 0x02#8]
  | .lit7d => .esctok [0x7D#8]
  | .lit b => .esctok [b]
  | .wr off d => .bus (.write4 off d)
  | .rd off => .bus (.read off .four)
  | .wrb k d => .bus (.write1 (windowOffset .inp k) d)
  | .rdb win k => .bus (.read (windowOffset win k) .one)
  | .loadin bytes => .pseudo (.loadin bytes)
  | .cmd c => .pseudo (.cmd c)
  | .cmdi c => .pseudo (.cmdi c)
  | .waitdone => .pseudo .waitdone
  | .ack => .pseudo .ack
  | .bcdarg off cnt => .pseudo (.bcdarg off cnt)

end Sys2Proof
end

