-- ==== Sys2Proof/Machine/State.lean ====
section
/-! DEFINITION. The state of the block (10_state.md), as plain data, and the state after reset (R48).

A register of several fields is held field by field, each at its width; reserved bits hold nothing and read 0 (R45).
`CFG` is a constant of Config and `IRQ` follows two bits (R44, R46): neither is held. -/

namespace Sys2Proof.Machine

/-- A byte buffer as a list of (index, byte) pairs, indices strictly rising. An unlisted index has no value: the byte
has not been written since reset (R24, R48). -/
abbrev Memory := List Host.Cell

/-- Why a step can end in a fault. -/
inductive Fault where
  /-- UNWRITTEN_INPUT: UNESCAPE or DECODE_FRAME would read a byte of the chunk that the host has not written since
  reset (R136), or a single token would. Safe: the hardware goes on with an unspecified byte, the model stops. -/
  | unwrittenInput
  deriving DecidableEq, Repr

/-- Why a step can be refused. -/
inductive Refusal where
  /-- Raised by an arm of `exec` whose instruction has no meaning yet, of which there is none. Safe. -/
  | notModelled (mnemonic : String)
  deriving DecidableEq, Repr

/-- The fields of `STATUS` (R28). -/
structure Status where
  /-- bit 0 -/
  busy : Bool
  /-- bit 1 -/
  done : Bool
  /-- bit 2 -/
  haz : Bool
  /-- bits 7:4 -/
  err : BitVec 4
  /-- bits 11:8 -/
  cause : BitVec 4
  /-- `CLASS`, bits 13:12 -/
  cls : BitVec 2
  deriving DecidableEq, Repr

/-- The bits of `ENV_FLAGS` (R32), bit 0 first. -/
structure EnvFlags where
  loaded : Bool
  lenOk : Bool
  startOk : Bool
  endOk : Bool
  cksOk : Bool
  isValid : Bool
  devBcdOk : Bool
  deriving DecidableEq, Repr

/-- The envelope registers (R32 to R40). -/
structure Envelope where
  /-- `ENV_FLAGS` (R32) -/
  flags : EnvFlags
  /-- `MSG_TYPE.TYPE` (R33) -/
  msgType : BitVec 16
  /-- `PROP.RAW` (R34) -/
  prop : BitVec 16
  /-- `PROP_DEC.MSG_LEN` (R35) -/
  msgLen : BitVec 10
  /-- `PROP_DEC.ENC_RAW` (R35) -/
  encRaw : BitVec 3
  /-- `PROP_DEC.ENC_MODE` (R35) -/
  encMode : BitVec 2
  /-- `MSG_COUNTER.COUNT` (R36) -/
  msgCounter : BitVec 16
  /-- `CKS.CALC` (R37) -/
  cksCalc : Byte
  /-- `CKS.RX` (R37) -/
  cksRx : Byte
  /-- `DEV_HI.BCD` (R38) -/
  devHi : BitVec 16
  /-- `DEV_LO.BCD` (R39) -/
  devLo : Word
  /-- `BODY.OFF` (R40) -/
  bodyOff : BitVec 16
  /-- `BODY.LEN` (R40) -/
  bodyLen : BitVec 16
  deriving DecidableEq, Repr

/-- The result registers of the BCD command (R41 to R43). -/
structure BcdResult where
  /-- `DIG = BCD_DIG_HI ‖ BCD_DIG_LO` (R41) -/
  dig : BitVec 64
  /-- `VAL = BCD_VAL_HI ‖ BCD_VAL_LO` (R42) -/
  val : BitVec 64
  /-- `BCD_FLAGS.OK` (R43) -/
  ok : Bool
  deriving DecidableEq, Repr

/-- The state of the block and of what drives it. -/
structure State where
  /-- `CTRL.OP` (R27) -/
  ctrlOp : BitVec 4
  /-- `CTRL.IE` (R27) -/
  ctrlIe : Bool
  /-- `STATUS` (R28) -/
  status : Status
  /-- `IN_LEN.LEN` (R29) -/
  inLen : BitVec 16
  /-- `OUT_LEN.LEN` (R30) -/
  outLen : BitVec 16
  /-- `BCD_ARG.OFF` (R31) -/
  bcdOff : BitVec 16
  /-- `BCD_ARG.CNT` (R31) -/
  bcdCnt : BitVec 4
  /-- The envelope registers (R32 to R40) -/
  env : Envelope
  /-- The BCD result registers (R41 to R43) -/
  bcd : BcdResult
  /-- `PEND_OP`, the engine's latched command (R23) -/
  pendOp : BitVec 4
  /-- The scan cursor `i` (R22) -/
  cursorI : BitVec 16
  /-- The scan cursor `o` (R22) -/
  cursorO : BitVec 16
  /-- `IN` with its written bits: `W[k]` is 1 exactly when index `k` is listed (R24, R25) -/
  inBuf : Memory
  /-- `OUT` (R26) -/
  outBuf : Memory
  /-- The MODEL's own: an UNESCAPE scan stands between two tokens. Every command is one atomic step (R60), so no run
  sees it true; `withFetchWord` sets it so that a step runs one token. -/
  scanning : Bool
  /-- The MODEL's own: what the environment presents next, first item first (R51, R78, R133). -/
  pending : List HostInput
  /-- The MODEL's own: how many of the host's accesses still come before the engine's step (R9 `LATENCY`, R141). -/
  latency : Nat
  /-- The MODEL's own: how many commands have been started, which numbers `Config.latency`. -/
  started : Nat
  /-- The MODEL's own: how many unspecified values have been read, which numbers `Config.draw`. -/
  draws : Nat
  /-- The MODEL's own: the value the last host read returned, zero-extended (R53, R55, R56). -/
  busData : Word
  deriving DecidableEq, Repr

/-- `STATUS` after reset (R48). -/
def Status.reset : Status :=
  { busy := false, done := false, haz := false, err := 0#4, cause := 0#4, cls := 0#2 }

/-- `ENV_FLAGS` with every bit 0. -/
def EnvFlags.zero : EnvFlags :=
  { loaded := false, lenOk := false, startOk := false, endOk := false, cksOk := false, isValid := false,
    devBcdOk := false }

/-- Every envelope register 0 (R48, R95). -/
def Envelope.zero : Envelope :=
  { flags := EnvFlags.zero, msgType := 0#16, prop := 0#16, msgLen := 0#10, encRaw := 0#3, encMode := 0#2,
    msgCounter := 0#16, cksCalc := 0#8, cksRx := 0#8, devHi := 0#16, devLo := 0#32, bodyOff := 0#16, bodyLen := 0#16 }

/-- Every BCD result register 0 (R48). -/
def BcdResult.zero : BcdResult := { dig := 0#64, val := 0#64, ok := false }

/-- The state after reset (R48). `PEND_OP` and the cursors have no value there: the model names 0 (log entry 1). The
environment presents nothing, since the block holds no program (R134; log entry 6). -/
def State.reset : State :=
  { ctrlOp := 0#4, ctrlIe := false, status := Status.reset, inLen := 0#16, outLen := 0#16, bcdOff := 0#16,
    bcdCnt := 0#4, env := Envelope.zero, bcd := BcdResult.zero, pendOp := 0#4, cursorI := 0#16, cursorO := 0#16,
    inBuf := [], outBuf := [], scanning := false, pending := [], latency := 0, started := 0, draws := 0,
    busData := 0#32 }

end Sys2Proof.Machine
end

