-- ==== Sys2Proof/Machine/Ops.lean ====
section
/-! DEFINITION. The named operations over buffers and registers: reading and writing a byte, how a command starts,
raises an error and completes (the block's trap entry, R118, R122), how the host acknowledges (its return, R123), the
register map (10_state.md), and every host-bus access (20_memory.md R51 to R56). -/

namespace Sys2Proof.Machine

/-! ### Buffers -/

/-- The byte a buffer lists at an index, if any. -/
def Memory.read : Memory → Nat → Option Byte
  | [], _ => none
  | (a, b) :: m, k => if k = a then some b else Memory.read m k

/-- `MemWrite(SP+k, 1, v)` (R14). -/
def Memory.write : Memory → Nat → Byte → Memory
  | [], k, v => [(k, v)]
  | (a, b) :: m, k, v =>
    if k < a then (k, v) :: (a, b) :: m
    else if k = a then (k, v) :: m
    else (a, b) :: Memory.write m k v

/-- Whether every index of a buffer lies above `k` and the indices rise strictly from there. -/
def Memory.wfAbove : Nat → Memory → Bool
  | _, [] => true
  | k, (a, _) :: m => decide (k < a) && Memory.wfAbove a m

/-- The canonical form of a buffer: indices strictly rising. An unlisted index has no value, so no entry equals one. -/
def Memory.wf : Memory → Bool
  | [] => true
  | (a, _) :: m => Memory.wfAbove a m

/-- `MemRead(SP+k, m)` as the unsigned number its `8m` bits spell, the byte at the lowest index most significant
(R14, R57). -/
def memRead (bytes : Nat → Byte) (k m : Nat) : Nat :=
  (List.range m).foldl (fun acc j => acc * 256 + (bytes (k + j)).toNat) 0

/-- `IN[k]`, when the host has written it since reset (R24, R25). -/
def State.inByte (s : State) (k : Nat) : Option Byte := s.inBuf.read k

/-- `OUT[k]` as the engine reads it (R26). An index no command has written holds an unspecified byte (R48). -/
def State.outByte (s : State) (k : Nat) : Byte := (s.outBuf.read k).getD (Config.outUnwritten k)

/-! ### Starting, raising, completing, acknowledging -/

/-- `STATUS.ERR` codes (R117). -/
abbrev errNone : BitVec 4 := 0#4
abbrev errUnknownMessageId : BitVec 4 := 1#4
abbrev errInvalidMessage : BitVec 4 := 4#4
abbrev errInvalidBcdDigit : BitVec 4 := 5#4
abbrev errIllegalCommand : BitVec 4 := 8#4
abbrev errBounds : BitVec 4 := 9#4

/-- `STATUS.CAUSE` codes (R117). -/
abbrev causeNone : BitVec 4 := 0#4
abbrev causeInvalidFraming : BitVec 4 := 2#4
abbrev causeChecksumMismatch : BitVec 4 := 3#4
abbrev causeShortFrame : BitVec 4 := 7#4

/-- `STATUS.CLASS` codes (R28, R111). -/
abbrev classNone : BitVec 2 := 0#2
abbrev classGeneric : BitVec 2 := 1#2
abbrev classLocation : BitVec 2 := 2#2
abbrev classUnknown : BitVec 2 := 3#2

/-- `STATUS.ERR <- e`. -/
def State.withErr (s : State) (e : BitVec 4) : State := { s with status := { s.status with err := e } }

/-- `STATUS.CAUSE <- c`. -/
def State.withCause (s : State) (c : BitVec 4) : State := { s with status := { s.status with cause := c } }

/-- `STATUS.CLASS <- c`. -/
def State.withClass (s : State) (c : BitVec 2) : State := { s with status := { s.status with cls := c } }

/-- `STATUS.HAZ <- 1`: a host write was dropped (R137). -/
def State.setHaz (s : State) : State := { s with status := { s.status with haz := true } }

/-- Completion, in the same atomic step as the command (R122). -/
def State.complete (s : State) : State := { s with status := { s.status with busy := false, done := true } }

/-- `raise E()` (R15, R118): the code is written, and the command ends and completes there. Which register writes the
command made before it is the caller's to say. -/
def State.raiseError (s : State) (e : BitVec 4) : State := (s.withErr e).complete

/-- `raise BOUNDS()`: `ERR` 9 and `CAUSE` 0, nothing else (R119). -/
def State.raiseBounds (s : State) : State := (s.withCause causeNone).raiseError errBounds

/-- Acknowledgement, the write-1-to-clear bits of `STATUS` (R52, R123): bit 1 clears `DONE`, bit 2 clears `HAZ`. -/
def State.acknowledge (s : State) (v : Word) : State :=
  { s with status :=
      { s.status with done := s.status.done && !v.getLsbD 1, haz := s.status.haz && !v.getLsbD 2 } }

/-- `CTRL.OP <- v[3:0]; CTRL.IE <- v[16]` (R52). -/
def State.storeCtrl (s : State) (v : Word) : State := { s with ctrlOp := wordOp v, ctrlIe := wordIe v }

/-- START accepted (R109): the word is stored, its `OP` latched, `BUSY` set, `DONE`, `ERR` and `CAUSE` cleared. How
many of the host's accesses come before the engine's step is free (R141, log entry 4). -/
def State.start (s : State) (v : Word) : State :=
  { s.storeCtrl v with
    pendOp := wordOp v
    status := { s.status with busy := true, done := false, err := errNone, cause := causeNone }
    latency := Config.latency s.started (wordOp v) s.inLen (s.bcdCnt ++ s.bcdOff) s.inBuf s.outBuf
    started := s.started + 1 }

/-- The level output `IRQ = STATUS.DONE ∧ CTRL.IE` (R46, R125). -/
def State.irq (s : State) : Bool := s.status.done && s.ctrlIe

/-- The reset input (R133): every register at its reset value, every written bit cleared, both buffers unspecified.
What the environment still presents, the last value it read and the numbers of the free values are not the block's. -/
def State.assertReset (s : State) : State :=
  { State.reset with pending := s.pending, started := s.started, draws := s.draws, busData := s.busData }

/-! ### The register map -/

/-- The registers of the block (R27 to R44). -/
inductive Reg where
  | ctrl
  | status
  | inLen
  | outLen
  | bcdArg
  | envFlags
  | msgType
  | prop
  | propDec
  | msgCounter
  | cks
  | devHi
  | devLo
  | body
  | bcdDigHi
  | bcdDigLo
  | bcdValHi
  | bcdValLo
  | bcdFlags
  | cfg
  deriving DecidableEq, Repr

/-- The offset of a register from `BASE` (R27 to R44). -/
def regOffset : Reg → BitVec 18
  | .ctrl => 0x000#18
  | .status => 0x004#18
  | .inLen => 0x008#18
  | .outLen => 0x00C#18
  | .bcdArg => 0x010#18
  | .envFlags => 0x014#18
  | .msgType => 0x018#18
  | .prop => 0x01C#18
  | .propDec => 0x020#18
  | .msgCounter => 0x024#18
  | .cks => 0x028#18
  | .devHi => 0x02C#18
  | .devLo => 0x030#18
  | .body => 0x034#18
  | .bcdDigHi => 0x038#18
  | .bcdDigLo => 0x03C#18
  | .bcdValHi => 0x040#18
  | .bcdValLo => 0x044#18
  | .bcdFlags => 0x048#18
  | .cfg => 0x04C#18

/-- Every register, by rising offset. -/
def allRegs : List Reg :=
  [.ctrl, .status, .inLen, .outLen, .bcdArg, .envFlags, .msgType, .prop, .propDec, .msgCounter, .cks, .devHi, .devLo,
   .body, .bcdDigHi, .bcdDigLo, .bcdValHi, .bcdValLo, .bcdFlags, .cfg]

/-- The register at an offset; none at a reserved offset (R45). -/
def regAt (off : BitVec 18) : Option Reg := allRegs.find? (fun r => regOffset r == off)

/-- The 32-bit value of a register, reserved bits and `CTRL.START` 0 (R27 to R44, R53). -/
def State.readReg (s : State) : Reg → Word
  | .ctrl => commandWord s.ctrlOp false s.ctrlIe
  | .status =>
    0#18 ++ s.status.cls ++ s.status.cause ++ s.status.err ++ 0#1 ++ BitVec.ofBool s.status.haz
      ++ BitVec.ofBool s.status.done ++ BitVec.ofBool s.status.busy
  | .inLen => s.inLen.setWidth 32
  | .outLen => s.outLen.setWidth 32
  | .bcdArg => 0#12 ++ s.bcdCnt ++ s.bcdOff
  | .envFlags =>
    0#25 ++ BitVec.ofBool s.env.flags.devBcdOk ++ BitVec.ofBool s.env.flags.isValid
      ++ BitVec.ofBool s.env.flags.cksOk ++ BitVec.ofBool s.env.flags.endOk ++ BitVec.ofBool s.env.flags.startOk
      ++ BitVec.ofBool s.env.flags.lenOk ++ BitVec.ofBool s.env.flags.loaded
  | .msgType => s.env.msgType.setWidth 32
  | .prop => s.env.prop.setWidth 32
  | .propDec => 0#14 ++ s.env.encMode ++ 0#3 ++ s.env.encRaw ++ s.env.msgLen
  | .msgCounter => s.env.msgCounter.setWidth 32
  | .cks => 0#16 ++ s.env.cksRx ++ s.env.cksCalc
  | .devHi => s.env.devHi.setWidth 32
  | .devLo => s.env.devLo
  | .body => s.env.bodyLen ++ s.env.bodyOff
  | .bcdDigHi => s.bcd.dig.extractLsb' 32 32
  | .bcdDigLo => s.bcd.dig.extractLsb' 0 32
  | .bcdValHi => s.bcd.val.extractLsb' 32 32
  | .bcdValLo => s.bcd.val.extractLsb' 0 32
  | .bcdFlags => (BitVec.ofBool s.bcd.ok).setWidth 32
  | .cfg => BitVec.ofNat 32 Config.maxInLen

/-- The registers a read of which is specified while a command runs (R53, R138). -/
def readableWhileBusy : Reg → Bool
  | .ctrl => true
  | .status => true
  | .inLen => true
  | .bcdArg => true
  | .cfg => true
  | _ => false

/-- A host register write that is not dropped (R52). -/
def State.writeReg (s : State) (r : Reg) (v : Word) : State :=
  match r with
  | .status => s.acknowledge v
  | .ctrl => if wordStart v then s.start v else s.storeCtrl v
  | .inLen => { s with inLen := v.extractLsb' 0 16 }
  | .bcdArg => { s with bcdOff := v.extractLsb' 0 16, bcdCnt := v.extractLsb' 16 4 }
  | _ => s

/-- The registers whose writes are dropped while a command runs (R52, R137). -/
def droppedWhileBusy : Reg → Bool
  | .ctrl => true
  | .inLen => true
  | .bcdArg => true
  | _ => false

/-! ### Host-bus accesses -/

/-- A host read returns `v`. -/
def State.returnData (s : State) (v : Word) : State := { s with busData := v }

/-- A host register read returns an unspecified value: the next draw (R53, R138). -/
def State.returnDraw (s : State) (off : BitVec 18) : State :=
  { s with busData := Config.draw s.draws off, draws := s.draws + 1 }

/-- A host byte read returns an unspecified byte: the low byte of the next draw (R55). -/
def State.returnDrawByte (s : State) (off : BitVec 18) : State :=
  { s with busData := ((Config.draw s.draws off).setWidth 8).setWidth 32, draws := s.draws + 1 }

/-- `(write, off, 4, v)` at a register offset (R52). -/
def State.busWriteWord (s : State) (off : BitVec 18) (v : Word) : State :=
  match regAt off with
  | none => s
  | some r => if s.status.busy && droppedWhileBusy r then s.setHaz else s.writeReg r v

/-- `(read, off, 4)` at a register offset (R53). -/
def State.busReadWord (s : State) (off : BitVec 18) : State :=
  match regAt off with
  | none => s.returnData 0#32
  | some r => if s.status.busy && !readableWhileBusy r then s.returnDraw off else s.returnData (s.readReg r)

/-- `(write, 0x10000+k, 1, b)` (R54). -/
def State.busWriteIn (s : State) (k : Nat) (b : Byte) : State :=
  if Config.maxInLen ≤ k then s
  else if s.status.busy then s.setHaz
  else { s with inBuf := s.inBuf.write k b }

/-- `(read, 0x10000+k, 1)` (R55): a byte the host has not written since reset is unspecified. -/
def State.busReadIn (s : State) (k : BitVec 16) : State :=
  if Config.maxInLen ≤ k.toNat then s.returnData 0#32
  else
    match s.inByte k.toNat with
    | some b => s.returnData (b.setWidth 32)
    | none => s.returnDrawByte (windowOffset .inp k)

/-- `(read, 0x20000+k, 1)` (R55): 0 above the buffer, whatever runs (R26, R50; log entry 5), and an unspecified byte of
it while a command runs (R138). -/
def State.busReadOut (s : State) (k : BitVec 16) : State :=
  if Config.maxInLen ≤ k.toNat then s.returnData 0#32
  else if s.status.busy then s.returnDrawByte (windowOffset .out k)
  else if k.toNat < s.outLen.toNat then s.returnData ((s.outByte k.toNat).setWidth 32)
  else s.returnDrawByte (windowOffset .out k)

/-- One host-bus access (R51). An access that is none of R52 to R55 changes nothing, and a read then returns 0
(R54, R56). -/
def State.hostAccess (s : State) : Access → State
  | .write4 off v => if registerForm off then s.busWriteWord off v else s
  | .write2 _ _ => s
  | .write1 off b =>
    match windowOf off with
    | some .inp => s.busWriteIn (windowIndex off).toNat b
    | some .out => s
    | none => s
  | .read off .four => if registerForm off then s.busReadWord off else s.returnData 0#32
  | .read _ .two => s.returnData 0#32
  | .read off .one =>
    match windowOf off with
    | some .inp => s.busReadIn (windowIndex off)
    | some .out => s.busReadOut (windowIndex off)
    | none => s.returnData 0#32

/-- The address of a window offset on the platform's bus (R50). -/
def busAddress (off : BitVec 18) : Nat := Config.base + off.toNat

/-- The offset a bus address reaches in this block, if it lies in the block's window of `0x40000` bytes (R49, R50). -/
def busOffset (addr : Nat) : Option (BitVec 18) :=
  if Config.base ≤ addr ∧ addr < Config.base + 0x40000 then some (BitVec.ofNat 18 (addr - Config.base)) else none

end Sys2Proof.Machine
end

