-- ==== Sys2Proof/Machine/Bus.lean ====
section
/-! DEFINITION. The host-bus instructions (format BUS): each is one transaction (30_encoding.md R78). A host access
never fails (R124). -/

namespace Sys2Proof.Machine

/-- WR (R52). -/
def execWr (off : BitVec 18) (data : Word) (s : State) : Host.Outcome State Fault Refusal :=
  .next (s.hostAccess (.write4 off data))

/-- RD (R53). -/
def execRd (off : BitVec 18) (s : State) : Host.Outcome State Fault Refusal :=
  .next (s.hostAccess (.read off .four))

/-- WRB (R54). -/
def execWrb (k : BitVec 16) (data : Byte) (s : State) : Host.Outcome State Fault Refusal :=
  .next (s.hostAccess (.write1 (windowOffset .inp k) data))

/-- RDB (R55). -/
def execRdb (win : Window) (k : BitVec 16) (s : State) : Host.Outcome State Fault Refusal :=
  .next (s.hostAccess (.read (windowOffset win k) .one))

end Sys2Proof.Machine
end

