-- ==== Sys2Proof/Machine/Operands.lean ====
section
/-! DEFINITION. How the engine's steps read their operands: the token window at the scan cursor (30_encoding.md R70),
the fields of the frame (R72, R73), and the packed-BCD bytes of a BCD command (41_bcd.md). -/

namespace Sys2Proof.Machine

/-! ### The raw chunk (format ESCTOK) -/

/-- What stands at the scan cursor: nothing (`i = IN_LEN`), a byte never written since reset, or the token window
`b0`, `b1` (R70). -/
inductive TokenFetch where
  | atEnd
  | unwritten
  | window (b0 : Byte) (b1 : Option Byte)
  deriving DecidableEq, Repr

/-- The token window at the cursor `i`. `b1` is absent when `i+1 = IN_LEN`, and it is read only when `b0 = ESC`: no
other byte asks for it (R70, R85). -/
def State.fetchToken (s : State) : TokenFetch :=
  let i := s.cursorI.toNat
  let m := s.inLen.toNat
  if m ≤ i then .atEnd
  else
    match s.inByte i with
    | none => .unwritten
    | some b0 =>
      if b0 = Config.esc ∧ i + 1 < m then
        match s.inByte (i + 1) with
        | none => .unwritten
        | some b1 => .window b0 (some b1)
      else .window b0 none

/-- What a token emits (R70). -/
def Token.emits : Token → Byte
  | .esc7d => Config.esc
  | .escDelim => Config.delim
  | .lit7d => Config.esc
  | .lit b => b

/-- How many bytes of the chunk a token consumes (R71). -/
def Token.consumes : Token → BitVec 16
  | .esc7d => 2#16
  | .escDelim => 2#16
  | .lit7d => 1#16
  | .lit _ => 1#16

/-- Whether every byte of the chunk has been written since reset (R136). -/
def State.chunkWritten (s : State) : Bool := (List.range s.inLen.toNat).all (fun k => (s.inByte k).isSome)

/-! ### The property word (format PROP) -/

/-- `P[9:0]`, the body length (R73). -/
def propLength (p : BitVec 16) : BitVec 10 := p.extractLsb' 0 10

/-- `P[12:10]`, the encryption mode (R73). -/
def propEncRaw (p : BitVec 16) : BitVec 3 := p.extractLsb' 10 3

/-- `encmode`: 0 None, 1 RSA, every other value 2 Invalid (R74, R99). -/
def encMode (e : BitVec 3) : BitVec 2 := if e = 0#3 then 0#2 else if e = 1#3 then 1#2 else 2#2

/-! ### Packed BCD (format BCD) -/

/-- The high and the low nibble of a BCD byte, the two digits in order (R76, R89). -/
def byteDigits (b : Byte) : List Nat := [(b.extractLsb' 4 4).toNat, (b.extractLsb' 0 4).toNat]

/-- `digits(s)` (R89). -/
def digits (bs : List Byte) : List Nat := bs.flatMap byteDigits

/-- `valid(s)`: no nibble exceeds 9 (R89, R90). -/
def bcdValid (bs : List Byte) : Bool := (digits bs).all (fun d => decide (d ≤ 9))

/-- `value(s)`: the digits read as a base-10 numeral (R91). -/
def bcdValue (bs : List Byte) : Nat := (digits bs).foldl (fun acc d => acc * 10 + d) 0

/-- The `c` bytes of `OUT` from offset `f`. -/
def State.outBytes (s : State) (f c : Nat) : List Byte := (List.range c).map (fun j => s.outByte (f + j))

end Sys2Proof.Machine
end

