-- ==== Sys2Proof/Machine/Flags.lean ====
section
/-! DEFINITION. The envelope registers and flags that the ENVELOPE step computes from the frame, and the codes it
reports (42_envelope.md). The frame is given by its length `n` and its bytes. -/

namespace Sys2Proof.Machine

/-- `OUT[1] ⊕ … ⊕ OUT[n-3]` (R103); the range is empty when `n < 4`. -/
def checksum (n : Nat) (out : Nat → Byte) : Byte :=
  (List.range (n - 3)).foldl (fun acc j => acc ^^^ out (j + 1)) 0#8

/-- `valid(OUT[5..10])` (R100). -/
def deviceBcdValid (out : Nat → Byte) : Bool := bcdValid ((List.range 6).map (fun j => out (5 + j)))

/-- `ENV_FLAGS` (R95, R100 to R104). -/
def envFlagsOf (n : Nat) (out : Nat → Byte) : EnvFlags :=
  let loaded := decide (Config.hdrLen ≤ n)
  let lenOk := decide (Config.minFrameLen ≤ n)
  let startOk := lenOk && out 0 == Config.delim
  let endOk := lenOk && out (n - 1) == Config.delim
  let cksOk := lenOk && checksum n out == out (n - 2)
  { loaded := loaded, lenOk := lenOk, startOk := startOk, endOk := endOk, cksOk := cksOk,
    isValid := lenOk && startOk && endOk && cksOk, devBcdOk := loaded && deviceBcdValid out }

/-- The header registers of a frame of at least `HDR_LEN` bytes (R96, R97, R99, R100). -/
def withHeader (out : Nat → Byte) (e : Envelope) : Envelope :=
  let p := BitVec.ofNat 16 (memRead out 3 2)
  { e with
    msgType := BitVec.ofNat 16 (memRead out 1 2)
    prop := p
    msgLen := propLength p
    encRaw := propEncRaw p
    encMode := encMode (propEncRaw p)
    devHi := BitVec.ofNat 16 (memRead out 5 2)
    devLo := BitVec.ofNat 32 (memRead out 7 4)
    msgCounter := BitVec.ofNat 16 (memRead out 11 2) }

/-- The checksum and body registers of a frame of at least `MIN_FRAME_LEN` bytes (R103, R106). -/
def withTrailer (n : Nat) (out : Nat → Byte) (e : Envelope) : Envelope :=
  { e with
    cksCalc := checksum n out
    cksRx := out (n - 2)
    bodyOff := BitVec.ofNat 16 Config.bodyOff
    bodyLen := BitVec.ofNat 16 (n - 15) }

/-- Every envelope register (R94): all 0 first, then the header where it is loaded, then the trailer where the frame
is long enough. -/
def envelopeOf (n : Nat) (out : Nat → Byte) : Envelope :=
  let e0 : Envelope := { Envelope.zero with flags := envFlagsOf n out }
  let e1 := if Config.hdrLen ≤ n then withHeader out e0 else e0
  if Config.minFrameLen ≤ n then withTrailer n out e1 else e1

/-- `cause()` (R105). -/
def causeOf (f : EnvFlags) : BitVec 4 :=
  if f.isValid then causeNone
  else if !f.lenOk then causeShortFrame
  else if !f.startOk || !f.endOk then causeInvalidFraming
  else causeChecksumMismatch

/-- The error code of the ENVELOPE step (R107). -/
def envelopeErr (f : EnvFlags) : BitVec 4 :=
  if f.loaded && !f.devBcdOk then errInvalidBcdDigit else errNone

/-- The class of a loaded header's message type (R111). -/
def classOf (t : BitVec 16) : BitVec 2 :=
  if t = Config.locationId then classLocation
  else if Config.recognized t then classGeneric
  else classUnknown

/-- The error DECODE_FRAME reports for a loaded header, in the order of R113, items 3 to 5. -/
def verdictErr (f : EnvFlags) (t : BitVec 16) : BitVec 4 :=
  if classOf t = classUnknown then errUnknownMessageId
  else if !f.devBcdOk then errInvalidBcdDigit
  else if !f.isValid then errInvalidMessage
  else errNone

end Sys2Proof.Machine
end

