-- ==== Sys2Proof/Machine/Tokens.lean ====
section
/-! DEFINITION. The unescaper's tokens (40_unescape.md R80 to R83): the micro-operations the UNESCAPE step is made
of. -/

namespace Sys2Proof.Machine

/-- Taking a token: its byte is stored at `OUT[o]`, `i` passes the bytes it consumes, `o` advances by 1 (R22). -/
def State.takeToken (s : State) (t : Token) : State :=
  { s with
    outBuf := s.outBuf.write s.cursorO.toNat (Token.emits t)
    cursorI := s.cursorI + Token.consumes t
    cursorO := s.cursorO + 1#16 }

/-- The pseudocode of a token's rule: it is taken if it is the token at the cursor, and nothing happens if not. A
cursor at a byte never written since reset is the model fault of R136. -/
def runToken (t : Token) (s : State) : Host.Outcome State Fault Refusal :=
  match s.fetchToken with
  | .atEnd => .next s
  | .unwritten => .fault .unwrittenInput
  | .window b0 b1 => if decodeToken b0 b1 = t then .next (s.takeToken t) else .next s

/-- ESC_7D (R80). -/
def execEsc7d (s : State) : Host.Outcome State Fault Refusal := runToken .esc7d s

/-- ESC_DELIM (R81). -/
def execEscDelim (s : State) : Host.Outcome State Fault Refusal := runToken .escDelim s

/-- LIT_7D (R82). -/
def execLit7d (s : State) : Host.Outcome State Fault Refusal := runToken .lit7d s

/-- LIT (R83). -/
def execLit (b : Byte) (s : State) : Host.Outcome State Fault Refusal := runToken (.lit b) s

/-- The scan of R85 with at most `fuel` tokens left to take. Each token consumes at least one byte, so `IN_LEN` of
fuel reaches the end of a chunk. -/
def scanLoop : Nat → State → State
  | 0, s => s
  | fuel + 1, s =>
    match s.fetchToken with
    | .window b0 b1 => scanLoop fuel (s.takeToken (decodeToken b0 b1))
    | .atEnd => s
    | .unwritten => s

/-- `i <- 0; o <- 0` (R85). -/
def State.beginScan (s : State) : State := { s with cursorI := 0#16, cursorO := 0#16 }

/-- `OUT_LEN.LEN <- o; STATUS.ERR <- NONE; STATUS.CAUSE <- 0` (R85). -/
def State.endScan (s : State) : State := ({ s with outLen := s.cursorO }.withErr errNone).withCause causeNone

/-- The UNESCAPE step on a chunk that fits and is written (R85). -/
def State.unescapeStep (s : State) : State := (scanLoop s.inLen.toNat s.beginScan).endScan

/-- An UNESCAPE scan that stands between two tokens reaches the end of the chunk: the step ends and the command
completes (R85, R122; log entry 3). -/
def State.finishScan (s : State) : State := { s.endScan.complete with scanning := false }

end Sys2Proof.Machine
end

