-- ==== Sys2Proof/Machine/Commands.lean ====
section
/-! DEFINITION. The engine's commands (format CTRL): UNESCAPE (R85), ENVELOPE (R94), DECODE_FRAME (R110), BCD (R92),
the reserved `OP` values (R120), and the `CTRL` write without START (R52). A command's meaning is the engine's one
atomic step, its completion included (R60, R122); issuing it is the host's `CTRL` write (R109). -/

namespace Sys2Proof.Machine

/-- `IN_LEN.LEN > MAX_IN_LEN` (R119). -/
def State.chunkTooLong (s : State) : Bool := decide (Config.maxInLen < s.inLen.toNat)

/-- UNESCAPE (R85, R136). -/
def execUnescape (s : State) : Host.Outcome State Fault Refusal :=
  if s.chunkTooLong then .next s.raiseBounds
  else if !s.chunkWritten then .fault .unwrittenInput
  else .next s.unescapeStep.complete

/-- The ENVELOPE step (R94), without the completion. -/
def State.envelopeStep (s : State) : State :=
  let e := envelopeOf s.outLen.toNat s.outByte
  ({ s with env := e }.withCause (causeOf e.flags)).withErr (envelopeErr e.flags)

/-- ENVELOPE (R94). -/
def execEnvelope (s : State) : Host.Outcome State Fault Refusal := .next s.envelopeStep.complete

/-- The verdict of DECODE_FRAME after its two steps (R110, R111, R113): a header that is not loaded has no class. -/
def State.verdict (s : State) : State :=
  if !s.env.flags.loaded then (s.withClass classNone).raiseError errInvalidMessage
  else (s.withClass (classOf s.env.msgType)).raiseError (verdictErr s.env.flags s.env.msgType)

/-- DECODE_FRAME (R110, R136). -/
def execDecodeFrame (s : State) : Host.Outcome State Fault Refusal :=
  if s.chunkTooLong then .next (s.withClass classNone).raiseBounds
  else if !s.chunkWritten then .fault .unwrittenInput
  else .next s.unescapeStep.envelopeStep.verdict

/-- `BCD_ARG.CNT > BCD_MAX_CNT` or `BCD_ARG.OFF + BCD_ARG.CNT > OUT_LEN`, the sum a natural number (R92, R119). -/
def State.bcdOutOfBounds (s : State) : Bool :=
  decide (Config.bcdMaxCnt < s.bcdCnt.toNat ∨ s.outLen.toNat < s.bcdOff.toNat + s.bcdCnt.toNat)

/-- The result registers of a BCD command over some bytes (R92): the raw nibbles always, the value when every nibble
is a digit. -/
def bcdResultOf (raw : Nat) (bs : List Byte) : BcdResult :=
  { dig := BitVec.ofNat 64 raw
    val := if bcdValid bs then BitVec.ofNat 64 (bcdValue bs) else 0#64
    ok := bcdValid bs }

/-- The BCD step inside its bounds (R92), without the completion. -/
def State.bcdStep (s : State) : State :=
  let f := s.bcdOff.toNat
  let c := s.bcdCnt.toNat
  let bs := s.outBytes f c
  ({ s with bcd := bcdResultOf (memRead s.outByte f c) bs }.withErr
    (if bcdValid bs then errNone else errInvalidBcdDigit)).withCause causeNone

/-- BCD (R92). -/
def execBcd (s : State) : Host.Outcome State Fault Refusal :=
  if s.bcdOutOfBounds then .next s.raiseBounds else .next s.bcdStep.complete

/-- A reserved `OP` completes with ILLEGAL_COMMAND and writes nothing else (R120). -/
def State.illegalCommand (s : State) : State := s.raiseError errIllegalCommand

/-- The reserved `OP` 0 (R120). -/
def execIllegalOp0 (s : State) : Host.Outcome State Fault Refusal := .next s.illegalCommand

/-- The reserved `OP` 5 (R120). -/
def execIllegalOp5 (s : State) : Host.Outcome State Fault Refusal := .next s.illegalCommand

/-- The reserved `OP` values 6 and 7 (R120). Which one it is stands in `CTRL.OP`, which the START wrote. -/
def execIllegalOp6to7 (_low : BitVec 1) (s : State) : Host.Outcome State Fault Refusal := .next s.illegalCommand

/-- The reserved `OP` values 8 to 15 (R120). Which one it is stands in `CTRL.OP`, which the START wrote. -/
def execIllegalOp8to15 (_low : BitVec 3) (s : State) : Host.Outcome State Fault Refusal := .next s.illegalCommand

/-- A `CTRL` write without START (R52): OP and IE are stored and nothing is issued; while a command runs the write is
dropped (R137). -/
def execCtrlWriteNoStart (op : BitVec 4) (ie : Bool) (s : State) : Host.Outcome State Fault Refusal :=
  .next (s.hostAccess (.write4 (regOffset .ctrl) (commandWord op false ie)))

end Sys2Proof.Machine
end

