-- ==== Sys2Proof/Machine/Pseudo.lean ====
section
/-! DEFINITION. The pseudo-instructions of host programs (30_encoding.md R79). Each expands to host-bus transactions,
and each transaction is one indivisible step of the host (R51): a pseudo-instruction performs the first transaction
of its expansion and leaves the others to be presented next, so that the engine may step between them. -/

namespace Sys2Proof.Machine

/-- The first transaction of an expansion is performed, the others are put before what the host presents. -/
def State.runExpansion (s : State) : List Access → State
  | [] => s
  | a :: rest => { s.hostAccess a with pending := rest.map HostInput.access ++ s.pending }

/-- `WRB IN[k], b0`, `WRB IN[k+1], b1`, …: the transactions `(write, 0x10000+k, 1, b)` (R78, R79). R79 bounds no
length: one whose offset lies past the window of `0x40000` bytes (R49, R51) is no access of the block, nor is any
after it (log entry 8). -/
def loadBytes : Nat → List Byte → List Access
  | _, [] => []
  | k, b :: bs =>
    if 0x10000 + k < 0x40000 then .write1 (BitVec.ofNat 18 (0x10000 + k)) b :: loadBytes (k + 1) bs else []

/-- The expansion of LOADIN: the byte writes, then `WR IN_LEN, m` (R79). -/
def loadinExpansion (bytes : List Byte) : List Access :=
  loadBytes 0 bytes ++ [.write4 (regOffset .inLen) (BitVec.ofNat 32 bytes.length)]

/-- LOADIN (R79). -/
def execLoadin (bytes : List Byte) (s : State) : Host.Outcome State Fault Refusal :=
  .next (s.runExpansion (loadinExpansion bytes))

/-- CMD: `WR CTRL, 0x00000100 | code(op)` (R79). -/
def execCmd (c : Command) (s : State) : Host.Outcome State Fault Refusal :=
  .next (s.runExpansion [.write4 (regOffset .ctrl) (0x00000100#32 ||| (commandCode c).setWidth 32)])

/-- CMDI: `WR CTRL, 0x00010100 | code(op)` (R79). -/
def execCmdi (c : Command) (s : State) : Host.Outcome State Fault Refusal :=
  .next (s.runExpansion [.write4 (regOffset .ctrl) (0x00010100#32 ||| (commandCode c).setWidth 32)])

/-- WAITDONE: `RD STATUS`, and again while bit 1 of what it returned is 0 (R79). -/
def execWaitdone (s : State) : Host.Outcome State Fault Refusal :=
  let t := s.hostAccess (.read (regOffset .status) .four)
  .next (if t.busData.getLsbD 1 then t else { t with pending := .line .waitdone :: t.pending })

/-- ACK: `WR STATUS, 0x00000006` (R79). -/
def execAck (s : State) : Host.Outcome State Fault Refusal :=
  .next (s.runExpansion [.write4 (regOffset .status) 0x00000006#32])

/-- BCDARG: `WR BCD_ARG, (cnt << 16) | off` (R79). -/
def execBcdarg (off : Word) (cnt : BitVec 16) (s : State) : Host.Outcome State Fault Refusal :=
  .next (s.runExpansion [.write4 (regOffset .bcdArg) ((cnt.setWidth 32 <<< 16) ||| off)])

end Sys2Proof.Machine
end

