-- ==== Sys2Proof/Machine/Dispatch.lean ====
section
/-! DEFINITION. One arm per instruction: its meaning. -/

namespace Sys2Proof.Machine

def exec (i : Instr) (s : State) : Host.Outcome State Fault Refusal :=
  match i with
  -- format CTRL
  | .unescape => Sys2Proof.Machine.execUnescape s
  | .envelope => Sys2Proof.Machine.execEnvelope s
  | .decodeFrame => Sys2Proof.Machine.execDecodeFrame s
  | .bcd => Sys2Proof.Machine.execBcd s
  | .illegalOp0 => Sys2Proof.Machine.execIllegalOp0 s
  | .illegalOp5 => Sys2Proof.Machine.execIllegalOp5 s
  | .illegalOp6to7 low => Sys2Proof.Machine.execIllegalOp6to7 low s
  | .illegalOp8to15 low => Sys2Proof.Machine.execIllegalOp8to15 low s
  | .ctrlWriteNoStart op ie => Sys2Proof.Machine.execCtrlWriteNoStart op ie s
  -- format ESCTOK
  | .esc7d => Sys2Proof.Machine.execEsc7d s
  | .escDelim => Sys2Proof.Machine.execEscDelim s
  | .lit7d => Sys2Proof.Machine.execLit7d s
  | .lit b => Sys2Proof.Machine.execLit b s
  -- format BUS
  | .wr off data => Sys2Proof.Machine.execWr off data s
  | .rd off => Sys2Proof.Machine.execRd off s
  | .wrb k data => Sys2Proof.Machine.execWrb k data s
  | .rdb win k => Sys2Proof.Machine.execRdb win k s
  -- format PSEUDO
  | .loadin bytes => Sys2Proof.Machine.execLoadin bytes s
  | .cmd c => Sys2Proof.Machine.execCmd c s
  | .cmdi c => Sys2Proof.Machine.execCmdi c s
  | .waitdone => Sys2Proof.Machine.execWaitdone s
  | .ack => Sys2Proof.Machine.execAck s
  | .bcdarg off cnt => Sys2Proof.Machine.execBcdarg off cnt s

end Sys2Proof.Machine
end

