-- ==== Sys2Proof/Machine/Fetch.lean ====
section
/-! DEFINITION. Which agent moves, and what instruction its step fetches. The block fetches no instruction words
(R22): the engine's instruction is the latched `PEND_OP` (R23), the host's is the next thing it presents (R51), and a
scan's is the token at its cursor (R70). -/

namespace Sys2Proof.Machine

/-- The command word the engine performs: the latched `OP` with START, and `CTRL.IE` (R23, R68). -/
def State.engineWord (s : State) : Word := commandWord s.pendOp true s.ctrlIe

/-- Whether the engine moves next: a command runs, and no more of the host's accesses come first, be it that the free
latency is used up or that the host presents nothing (R141, log entry 4). -/
def State.engineMoves (s : State) : Bool := s.status.busy && (s.latency == 0 || s.pending.isEmpty)

/-- The state in which an input the host presented runs: the input is taken, and one access less comes before the
engine's step. -/
def State.takeInput (s : State) (rest : List HostInput) : State :=
  { s with pending := rest, latency := s.latency - 1 }

/-- What a step fetches: an instruction and the state it runs in, or the outcome of a step that runs none. -/
inductive Fetched where
  | run (i : Instr) (s : State)
  | settled (o : Host.Outcome State Fault Refusal)

/-- Between two tokens of a scan: the token at the cursor runs, and at the end of the chunk the command completes. -/
def State.fetchScan (s : State) : Fetched :=
  match s.fetchToken with
  | .atEnd => .settled (.next s.finishScan)
  | .unwritten => .settled (.fault .unwrittenInput)
  | .window b0 b1 => .run (decodeToken b0 b1).toInstr s

/-- An input the host presents, in the state `s` in which it has been taken. An access that is no instruction of the
table has the effect of R56; a command word with START is the register write that issues it (R68, R109). -/
def State.fetchInput (s : State) : HostInput → Fetched
  | .access a =>
    match decode (.bus a) with
    | .ok i => .run i s
    | .error _ => .settled (.next (s.hostAccess a))
  | .ctrlWord v => if wordStart v then .run (.wr (regOffset .ctrl) v) s else .run (decodeCtrl v) s
  | .line l => .run (decodeLine l) s
  | .rst => .settled (.next s.assertReset)

/-- The fetch of a step. With no command running and nothing presented, the block is idle and holds its state
(R132). -/
def State.fetch (s : State) : Fetched :=
  if s.scanning then s.fetchScan
  else if s.engineMoves then .run (decodeCtrl s.engineWord) s
  else
    match s.pending with
    | [] => .settled (.next s)
    | h :: rest => (s.takeInput rest).fetchInput h

/-- A command word `v` placed where a step fetches: with START the engine holds it, as an accepted START leaves it,
and moves next; without START the host presents it next. -/
def State.placeWord (s : State) (v : Word) : State :=
  if wordStart v then { s.start v with scanning := false, latency := 0 }
  else { s with scanning := false, pending := .ctrlWord v :: s.pending, latency := s.latency + 1 }

/-- Raw bytes placed where a step fetches: a scan stands at the cursors' start, before them and nothing else. -/
def State.placeBytes (s : State) : List Byte → State
  | [] => s
  | [b0] => { s with scanning := true, cursorI := 0#16, cursorO := 0#16, inLen := 1#16, inBuf := s.inBuf.write 0 b0 }
  | b0 :: b1 :: _ =>
    { s with scanning := true, cursorI := 0#16, cursorO := 0#16, inLen := 2#16,
             inBuf := (s.inBuf.write 0 b0).write 1 b1 }

end Sys2Proof.Machine
end

