-- ==== Sys2Proof/Machine/Step.lean ====
section
/-! DEFINITION. One step: the agent that moves fetches and runs its instruction (Machine/Fetch.lean). -/

namespace Sys2Proof.Machine

/-- One step of the block and what drives it. -/
def step (s : State) : Host.Outcome State Fault Refusal :=
  match s.fetch with
  | .run i t => exec i t
  | .settled o => o

/-- `s` with an instruction, given by its bits as spec/opcode_table.json numbers them, placed where the next step
fetches: a 32-bit command word, or the token window `b0` in bits 15:8, `b1` in bits 7:0. The other rows have no bits
(log entry 6). -/
def State.withFetchWord (s : State) (nbits w : Nat) : State :=
  if nbits = 32 then s.placeWord (BitVec.ofNat 32 w)
  else if nbits = 16 then s.placeBytes [BitVec.ofNat 8 (w / 256), BitVec.ofNat 8 w]
  else if nbits = 8 then s.placeBytes [BitVec.ofNat 8 w]
  else s

end Sys2Proof.Machine
end

