-- ==== Sys2Proof/Safety.lean ====
section
/-! DEFINITION. The terms claims use: the spec's own functions on byte strings (40_unescape.md R84, R86, R87) and on
digits (41_bcd.md R91), the legal values of the coded fields (60_exceptions.md R117, 10_state.md R35), and the invariant
of the block's state. None of it is used by the machine. -/

namespace Sys2Proof.Machine

/-! ### Byte strings -/

/-- `unesc`, the equations of R84 in the order written. -/
def unesc : List Byte → List Byte
  | [] => []
  | [b] => [b]
  | b0 :: b1 :: t =>
    if b0 = 0x7D#8 ∧ b1 = 0x01#8 then 0x7D#8 :: unesc t
    else if b0 = 0x7D#8 ∧ b1 = 0x02#8 then Config.delim :: unesc t
    else b0 :: unesc (b1 :: t)

/-- `e`, the number of ESC_7D and ESC_DELIM tokens of a chunk (R86). -/
def pairTokens : List Byte → Nat
  | [] => 0
  | [_] => 0
  | b0 :: b1 :: t =>
    if b0 = 0x7D#8 ∧ (b1 = 0x01#8 ∨ b1 = 0x02#8) then pairTokens t + 1 else pairTokens (b1 :: t)

/-- `esc`, the stuffing function R87 defines as a test oracle. The block does not implement it. -/
def stuff : List Byte → List Byte
  | [] => []
  | b :: t =>
    if b = 0x7D#8 then 0x7D#8 :: 0x01#8 :: stuff t
    else if b = 0x7E#8 then 0x7D#8 :: 0x02#8 :: stuff t
    else b :: stuff t

/-- `Σ e_k · 10^(m-1-k)` over the digits `e_0 … e_(m-1)` (R91). -/
def decimalSum : List Nat → Nat
  | [] => 0
  | e :: es => e * 10 ^ es.length + decimalSum es

/-- The digit string of some BCD bytes, `0x30 + d` for each digit `d` (R89). It is defined only when every nibble is a
digit; the device number's is that of `OUT[5..10]` (R77, R100). -/
def digitString (bs : List Byte) : Option (List Byte) :=
  if bcdValid bs then some ((digits bs).map (fun d => BitVec.ofNat 8 (0x30 + d))) else none

/-- The chunk `IN[0..m-1]`, a byte the host has not written counted as 0 (claims use it on written chunks). -/
def State.chunk (s : State) : List Byte := (List.range s.inLen.toNat).map (fun k => (s.inByte k).getD 0#8)

/-- The frame `OUT[0..n-1]`. -/
def State.frame (s : State) : List Byte := s.outBytes 0 s.outLen.toNat

/-- The chunk is one that UNESCAPE and DECODE_FRAME process: it fits, and the host has written all of it
(R119, R136). -/
def State.ChunkReady (s : State) : Prop :=
  s.inLen.toNat ≤ Config.maxInLen ∧ ∀ k, k < s.inLen.toNat → (s.inByte k).isSome = true

/-- `STATUS` as a command leaves it that completes with an error code and a cause (R118, R122). -/
def Status.completed (st : Status) (err cause : BitVec 4) : Status :=
  { st with busy := false, done := true, err := err, cause := cause }

/-- A token was taken between `s` and `t`: `OUT[o]` holds `b`, every other byte of `OUT` is as before, the cursors
advanced, and nothing else changed (R22, R80 to R83). -/
def TokenTaken (s t : State) (b : Byte) (advance : BitVec 16) : Prop :=
  t.outBuf.read s.cursorO.toNat = some b ∧
  (∀ k, k ≠ s.cursorO.toNat → t.outBuf.read k = s.outBuf.read k) ∧
  t = { s with outBuf := t.outBuf, cursorI := s.cursorI + advance, cursorO := s.cursorO + 1#16 }

/-- Both digits of a byte are decimal (R89). -/
def decimalByte (b : Byte) : Prop := b.toNat / 16 ≤ 9 ∧ b.toNat % 16 ≤ 9

/-- `STATUS.CAUSE` tells why the envelope the flags describe is invalid, in the order of R105. -/
def CauseTold (t : State) : Prop :=
  (t.env.flags.isValid = true → t.status.cause = 0#4) ∧
  (t.env.flags.isValid = false → t.env.flags.lenOk = false → t.status.cause = 7#4) ∧
  (t.env.flags.isValid = false → t.env.flags.lenOk = true →
    (t.env.flags.startOk = false ∨ t.env.flags.endOk = false) → t.status.cause = 2#4) ∧
  (t.env.flags.isValid = false → t.env.flags.lenOk = true → t.env.flags.startOk = true →
    t.env.flags.endOk = true → t.status.cause = 3#4)

/-- An `OP` value that spells no command (R69). -/
def reservedOp (op : BitVec 4) : Bool := op == 0#4 || decide (5 ≤ op.toNat)

/-- The instructions the host performs, as against the engine's commands and the unescaper's tokens (R8). -/
def byHost (i : Instr) : Bool :=
  match i.format with
  | .bus => true
  | .pseudo => true
  | .ctrl => (match i with | .ctrlWriteNoStart _ _ => true | _ => false)
  | .esctok => false

/-! ### Legal values -/

/-- The codes the block writes to `STATUS.ERR` (R117). -/
def errLegal (e : BitVec 4) : Bool :=
  e == errNone || e == errUnknownMessageId || e == errInvalidMessage || e == errInvalidBcdDigit
    || e == errIllegalCommand || e == errBounds

/-- The codes the block writes to `STATUS.CAUSE` (R117). -/
def causeLegal (c : BitVec 4) : Bool :=
  c == causeNone || c == causeInvalidFraming || c == causeChecksumMismatch || c == causeShortFrame

/-- What R32 and R104 say ties the bits of `ENV_FLAGS` together. -/
def flagsCoherent (f : EnvFlags) : Bool :=
  f.isValid == (f.lenOk && f.startOk && f.endOk && f.cksOk) && (!f.lenOk || f.loaded)
    && (!f.startOk || f.lenOk) && (!f.endOk || f.lenOk) && (!f.cksOk || f.lenOk) && (!f.devBcdOk || f.loaded)

/-- Every index a buffer lists is one the buffer has (R25, R26). -/
def Memory.within (m : Memory) (n : Nat) : Bool := m.all (fun c => decide (c.1 < n))

/-- The invariant of the block's state: the buffers are canonical and within their capacity, `OUT` holds a byte at
every index below `OUT_LEN`, coded fields hold codes the spec uses, and a running command is one that START left with
`DONE`, `ERR` and `CAUSE` clear and `CTRL.OP` latched. -/
structure State.Inv (s : State) : Prop where
  inWf : s.inBuf.wf = true
  inWithin : s.inBuf.within Config.maxInLen = true
  outWf : s.outBuf.wf = true
  outWithin : s.outBuf.within Config.maxInLen = true
  outLenFits : s.outLen.toNat ≤ Config.maxInLen
  outListed : ∀ k, k < s.outLen.toNat → (s.outBuf.read k).isSome = true
  errLegal : errLegal s.status.err = true
  causeLegal : causeLegal s.status.cause = true
  flagsCoherent : flagsCoherent s.env.flags = true
  encModeLegal : s.env.encMode ≠ 3#2
  busyClean : s.status.busy = true →
    s.status.done = false ∧ s.status.err = errNone ∧ s.status.cause = causeNone ∧ s.pendOp = s.ctrlOp
  notScanning : s.scanning = false

end Sys2Proof.Machine
end

