-- ==== Sys2Proof/Certificates/Slice0/Obligations.lean ====
section
/-! DEFINITION. The statements for the provers, from the numbered rules of spec/. -/

open Sys2Proof Sys2Proof.Machine

/-! ### Decoding and encoding -/

/-- Words, transactions and lines written out from R68, R70, R78 and R79 decode to what they stand for. -/
def Obligations.WrittenWordsDecode : Prop :=
  decodeTableWord 32 0x00000101 = some .unescape ∧ decodeTableWord 32 0x00010102 = some .envelope ∧
  decodeTableWord 32 0x00000103 = some .decodeFrame ∧ decodeTableWord 32 0x00000104 = some .bcd ∧
  decodeTableWord 32 0x0000010F = some (.illegalOp8to15 7#3) ∧
  decodeTableWord 32 0x00010003 = some (.ctrlWriteNoStart 3#4 true) ∧
  decodeTableWord 16 0x7D01 = some .esc7d ∧ decodeTableWord 16 0x7D02 = some .escDelim ∧
  decodeTableWord 16 0x7D03 = some .lit7d ∧ decodeTableWord 16 0x7E30 = some (.lit 0x7E#8) ∧
  decode (.bus (.write4 0x00008#18 0x0000000F#32)) = .ok (.wr 0x00008#18 0x0000000F#32) ∧
  decode (.bus (.read 0x0002C#18 .four)) = .ok (.rd 0x0002C#18) ∧
  decode (.bus (.write1 0x1000D#18 0x8D#8)) = .ok (.wrb 0x000D#16 0x8D#8) ∧
  decode (.bus (.read 0x2000E#18 .one)) = .ok (.rdb .out 0x000E#16) ∧
  decode (.pseudo (.cmdi .decodeFrame)) = .ok (.cmdi .decodeFrame) ∧
  decode (.pseudo (.bcdarg 5 6)) = .ok (.bcdarg 5#32 6#16)

/-- R68 and the table's match and mask: a command word is read through its mask alone, and the operands it leaves are
the bits of the word. -/
def Obligations.CommandWordsDecodeByMask : Prop :=
  ∀ v : Word,
    (decodeCtrl v = .unescape ↔ v &&& 0x0000010F#32 = 0x00000101#32) ∧
    (decodeCtrl v = .envelope ↔ v &&& 0x0000010F#32 = 0x00000102#32) ∧
    (decodeCtrl v = .decodeFrame ↔ v &&& 0x0000010F#32 = 0x00000103#32) ∧
    (decodeCtrl v = .bcd ↔ v &&& 0x0000010F#32 = 0x00000104#32) ∧
    (decodeCtrl v = .illegalOp0 ↔ v &&& 0x0000010F#32 = 0x00000100#32) ∧
    (decodeCtrl v = .illegalOp5 ↔ v &&& 0x0000010F#32 = 0x00000105#32) ∧
    (decodeCtrl v = .illegalOp6to7 (v.extractLsb' 0 1) ↔ v &&& 0x0000010E#32 = 0x00000106#32) ∧
    (decodeCtrl v = .illegalOp8to15 (v.extractLsb' 0 3) ↔ v &&& 0x00000108#32 = 0x00000108#32) ∧
    (decodeCtrl v = .ctrlWriteNoStart (v.extractLsb' 0 4) (v.getLsbD 16) ↔ v &&& 0x00000100#32 = 0#32)

/-- Decoding the encoding of a well-formed instruction gives the instruction back, for every instruction and every
value of its operands. -/
def Obligations.EncodedInstructionsDecode : Prop :=
  ∀ i : Instr, i.WellFormed → decode (encode i) = .ok i

/-- R70 and R71: a token's bytes are read back from the head of any stream (a lone `7D` only where no `01` or `02`
follows it), and every non-empty stream begins with the bytes of the token it decodes to. -/
def Obligations.TokensReadFromTheStream : Prop :=
  (∀ (t : Token) (bs rest : List Byte), t.toInstr.WellFormed → encode t.toInstr = .esctok bs →
    (t = .lit7d → rest.head? ≠ some 0x01#8 ∧ rest.head? ≠ some 0x02#8) →
    decode (.esctok (bs ++ rest)) = .ok t.toInstr) ∧
  (∀ (b : Byte) (bs : List Byte), ∃ (t : Token) (cs rest : List Byte),
    decode (.esctok (b :: bs)) = .ok t.toInstr ∧ t.toInstr.WellFormed ∧ encode t.toInstr = .esctok cs ∧
    b :: bs = cs ++ rest ∧ cs.length = (Token.consumes t).toNat)

/-! ### Steps -/

/-- A step runs the instruction that what it fetches decodes to. The engine's is the latched `OP` (R23): it moves
when a command runs and the free latency is used up or nothing is presented. Otherwise the host's next input runs, in
the state without it and with one access less before the engine's step. Between two tokens of a scan it is the token
at the cursor. -/
def Obligations.StepRunsTheDecodedInstruction : Prop :=
  ∀ s : State,
    (s.scanning = false → s.status.busy = true → (s.latency = 0 ∨ s.pending = []) →
      decode (.ctrl s.engineWord) = .ok (decodeOp s.pendOp) ∧ step s = exec (decodeOp s.pendOp) s) ∧
    (s.scanning = false → (s.status.busy = false ∨ s.latency ≠ 0) → ∀ rest : List HostInput,
      (∀ a i, s.pending = .access a :: rest → decode (.bus a) = .ok i →
        step s = exec i { s with pending := rest, latency := s.latency - 1 }) ∧
      (∀ l i, s.pending = .line l :: rest → decode (.pseudo l) = .ok i →
        step s = exec i { s with pending := rest, latency := s.latency - 1 }) ∧
      (∀ v i, s.pending = .ctrlWord v :: rest → v.getLsbD 8 = false → decode (.ctrl v) = .ok i →
        step s = exec i { s with pending := rest, latency := s.latency - 1 }) ∧
      (∀ v, s.pending = .ctrlWord v :: rest → v.getLsbD 8 = true →
        step s = exec (.wr 0x00000#18 v) { s with pending := rest, latency := s.latency - 1 })) ∧
    (s.scanning = true → ∀ b0 b1 i, s.fetchToken = .window b0 b1 → decode (.esctok (b0 :: b1.toList)) = .ok i →
      step s = exec i s)

/-- With no command running and nothing presented, the block holds its state (R132). -/
def Obligations.IdleBlockHoldsItsState : Prop :=
  ∀ s : State, s.scanning = false → s.status.busy = false → s.pending = [] → step s = .next s

/-- R141 as one deterministic machine shows it (log entry 4): whatever the host presents, but for the reset input, a
running command completes, or ends in the model fault, after at most as many of them as its latency. -/
def Obligations.RunningCommandCompletes : Prop :=
  ∀ s : State, s.scanning = false → s.status.busy = true →
    (∀ h, h ∈ s.pending → h ≠ .rst) →
    ∃ k, k ≤ s.latency + 1 ∧
      ((∃ t, Host.Core.run Sys2Proof.core k s = .next t ∧ t.status.busy = false ∧ t.status.done = true) ∨
        Host.Core.run Sys2Proof.core k s = .fault .unwrittenInput)

/-! ### Reset -/

/-- R48: what reset leaves. `PEND_OP` and the cursors have no value there, and the statement says nothing of them. -/
def Obligations.ResetLeavesTheStatedValues : Prop :=
  (∀ r : Reg, r ≠ .cfg → State.reset.readReg r = 0#32) ∧
  State.reset.readReg .cfg = BitVec.ofNat 32 Config.maxInLen ∧
  State.reset.status.busy = false ∧ State.reset.ctrlIe = false ∧
  (∀ k, State.reset.inByte k = none) ∧ State.reset.outLen = 0#16 ∧ (∀ k, State.reset.outBuf.read k = none) ∧
  State.reset.irq = false

/-- R133: the reset input gives every register its reset value and abandons a running command, which does not set
`DONE`. What the environment presents and reads is not the block's. -/
def Obligations.ResetInputRestoresReset : Prop :=
  ∀ (s : State) (rest : List HostInput), s.scanning = false → (s.status.busy = false ∨ s.latency ≠ 0) →
    s.pending = .rst :: rest →
    ∃ t, step s = .next t ∧ (∀ r, t.readReg r = State.reset.readReg r) ∧ t.status.busy = false ∧
      t.status.done = false ∧ t.irq = false ∧ (∀ k, t.inByte k = none) ∧
      t = { State.reset with pending := rest, started := s.started, draws := s.draws, busData := s.busData }

/-! ### The invariant -/

/-- The reset state meets the invariant. -/
def Obligations.ResetMeetsTheInvariant : Prop := State.reset.Inv

/-- Every step keeps the invariant, from every state that meets it. -/
def Obligations.StepKeepsTheInvariant : Prop :=
  ∀ s t : State, s.Inv → step s = .next t → t.Inv

/-! ### UNESCAPE -/

/-- R85: UNESCAPE writes `unesc` of the chunk to `OUT` and its length to `OUT_LEN`, and nothing else but the cursors
and `STATUS`. A chunk longer than the buffer raises BOUNDS, one with an unwritten byte is the model fault. -/
def Obligations.UnescapeWritesTheUnescapedChunk : Prop :=
  (∀ v : Word, v &&& 0x0000010F#32 = 0x00000101#32 → decode (.ctrl v) = .ok .unescape) ∧
  ∀ s : State,
    (s.ChunkReady →
      ∃ t, exec .unescape s = .next t ∧ t.outLen.toNat = (unesc s.chunk).length ∧
        (∀ k, k < t.outLen.toNat → t.outBuf.read k = (unesc s.chunk)[k]?) ∧
        (∀ k, t.outLen.toNat ≤ k → t.outBuf.read k = s.outBuf.read k) ∧
        t = { s with outBuf := t.outBuf, outLen := t.outLen, cursorI := s.inLen, cursorO := t.outLen,
                     status := s.status.completed errNone causeNone }) ∧
    (Config.maxInLen < s.inLen.toNat →
      exec .unescape s = .next { s with status := s.status.completed errBounds causeNone }) ∧
    (s.inLen.toNat ≤ Config.maxInLen → (∃ k, k < s.inLen.toNat ∧ s.inByte k = none) →
      exec .unescape s = .fault .unwrittenInput)

/-- R86: the length law. -/
def Obligations.UnescapeLengthLaw : Prop :=
  ∀ s : State, s.ChunkReady →
    ∃ t, exec .unescape s = .next t ∧ t.outLen.toNat + pairTokens s.chunk = s.inLen.toNat ∧
      t.outLen.toNat ≤ s.inLen.toNat ∧ s.inLen.toNat ≤ 2 * t.outLen.toNat ∧
      (t.outLen = s.inLen ↔ pairTokens s.chunk = 0)

/-- R87: the round-trip law, of the function and of the command, and why its converse fails. -/
def Obligations.UnescapeUndoesStuffing : Prop :=
  (∀ x : List Byte, unesc (stuff x) = x) ∧
  (∀ (s : State) (x : List Byte), s.ChunkReady → s.chunk = stuff x →
    ∃ t, exec .unescape s = .next t ∧ t.frame = x) ∧
  unesc [0x7D#8, 0x01#8] = [0x7D#8] ∧ unesc [0x7D#8] = [0x7D#8]

/-- R60 and R80 to R85: the atomic UNESCAPE command is its tokens, run one a step from cursors at 0. That a scan can
stand between two tokens is the model's (log entry 3). -/
def Obligations.UnescapeIsItsTokens : Prop :=
  ∀ s : State, s.scanning = false → s.ChunkReady →
    ∃ k, k ≤ s.inLen.toNat + 1 ∧
      Host.Core.run Sys2Proof.core k { s with scanning := true, cursorI := 0#16, cursorO := 0#16 } =
        exec .unescape s

/-- R80 to R83: which token each window is, and that at a cursor inside the chunk each token takes its bytes, emits its
byte and advances, and a token that does not stand at the cursor does nothing. -/
def Obligations.TokensEmitAndAdvance : Prop :=
  (∀ (b0 : Byte) (b1 : Option Byte),
    (decodeToken b0 b1 = .esc7d ↔ b0 = 0x7D#8 ∧ b1 = some 0x01#8) ∧
    (decodeToken b0 b1 = .escDelim ↔ b0 = 0x7D#8 ∧ b1 = some 0x02#8) ∧
    (decodeToken b0 b1 = .lit7d ↔ b0 = 0x7D#8 ∧ b1 ≠ some 0x01#8 ∧ b1 ≠ some 0x02#8) ∧
    (∀ b, decodeToken b0 b1 = .lit b ↔ b0 ≠ 0x7D#8 ∧ b = b0)) ∧
  ∀ (s : State) (i m : Nat), i = s.cursorI.toNat → m = s.inLen.toNat → i < m →
    (s.inByte i = some 0x7D#8 → i + 1 < m → s.inByte (i + 1) = some 0x01#8 →
      ∃ t, exec .esc7d s = .next t ∧ TokenTaken s t 0x7D#8 2#16) ∧
    (s.inByte i = some 0x7D#8 → i + 1 < m → s.inByte (i + 1) = some 0x02#8 →
      ∃ t, exec .escDelim s = .next t ∧ TokenTaken s t 0x7E#8 2#16) ∧
    (s.inByte i = some 0x7D#8 →
      (i + 1 = m ∨ i + 1 < m ∧ ∃ b1, s.inByte (i + 1) = some b1 ∧ b1 ≠ 0x01#8 ∧ b1 ≠ 0x02#8) →
      ∃ t, exec .lit7d s = .next t ∧ TokenTaken s t 0x7D#8 1#16) ∧
    (∀ b : Byte, s.inByte i = some b → b ≠ 0x7D#8 →
      ∃ t, exec (.lit b) s = .next t ∧ TokenTaken s t b 1#16) ∧
    (∀ (t : Token) (b0 : Byte) (b1 : Option Byte), s.fetchToken = .window b0 b1 → decodeToken b0 b1 ≠ t →
      exec t.toInstr s = .next s)

/-- R136: the one model fault. The two commands that read the chunk end in it exactly when the chunk fits and the host
has not written all of it; a token ends in it only at such a byte; no other instruction ever does; and a run does not
leave it. -/
def Obligations.UnwrittenInputIsTheOnlyFault : Prop :=
  (∀ s : State, exec .unescape s = .fault .unwrittenInput ↔
    s.inLen.toNat ≤ Config.maxInLen ∧ ∃ k, k < s.inLen.toNat ∧ s.inByte k = none) ∧
  (∀ s : State, exec .decodeFrame s = .fault .unwrittenInput ↔
    s.inLen.toNat ≤ Config.maxInLen ∧ ∃ k, k < s.inLen.toNat ∧ s.inByte k = none) ∧
  (∀ (s : State) (t : Token), exec t.toInstr s = .fault .unwrittenInput →
    ∃ k, k < s.inLen.toNat ∧ s.inByte k = none) ∧
  (∀ (i : Instr) (s : State), i ≠ .unescape → i ≠ .decodeFrame → i.format ≠ .esctok → ∃ t, exec i s = .next t) ∧
  (∀ (s : State) (f : Fault) (k j : Nat), Host.Core.run Sys2Proof.core k s = .fault f →
    Host.Core.run Sys2Proof.core (k + j) s = .fault f)

/-- R124 and R136: no step is refused, and a step ends in the model fault only where some byte of the chunk is
unwritten. -/
def Obligations.NoStepIsRefused : Prop :=
  ∀ s : State, (∃ t, step s = .next t) ∨
    (step s = .fault .unwrittenInput ∧ ∃ k, k < s.inLen.toNat ∧ s.inByte k = none)

/-! ### ENVELOPE -/

/-- R105 and R107: ENVELOPE completes from every state, writes the envelope registers, `CAUSE` in its order and `ERR`,
and nothing else. DECODE_FRAME writes `CAUSE` in the same order. -/
def Obligations.EnvelopeReportsCauseAndError : Prop :=
  ∀ s : State,
    (∃ t, exec .envelope s = .next t ∧
      t = { s with env := t.env, status := s.status.completed t.status.err t.status.cause } ∧
      CauseTold t ∧
      (t.env.flags.loaded = true ∧ t.env.flags.devBcdOk = false → t.status.err = 5#4) ∧
      (¬(t.env.flags.loaded = true ∧ t.env.flags.devBcdOk = false) → t.status.err = 0#4)) ∧
    (s.ChunkReady → ∃ t, exec .decodeFrame s = .next t ∧ CauseTold t)

/-- R95: the header fields are extracted exactly when `n ≥ 13`. Below that every envelope register is 0. -/
def Obligations.EnvelopeOfAShortBufferIsZero : Prop :=
  ∀ s : State, ∃ t, exec .envelope s = .next t ∧
    (t.env.flags.loaded = true ↔ 13 ≤ s.outLen.toNat) ∧
    (s.outLen.toNat < 13 → t.env = Envelope.zero ∧ t.status.cause = 7#4 ∧ t.status.err = 0#4)

/-- R96, R97, R99 and R100: the header fields of a frame of at least 13 bytes. No value of theirs but a nibble of the
device number is an error, and none of them enters `IS_VALID`. -/
def Obligations.EnvelopeExtractsTheHeader : Prop :=
  ∀ (s : State) (o : Nat → Byte), o = s.outByte → 13 ≤ s.outLen.toNat →
    ∃ t, exec .envelope s = .next t ∧
      t.env.msgType = o 1 ++ o 2 ∧ t.env.prop = o 3 ++ o 4 ∧ t.env.msgCounter = o 11 ++ o 12 ∧
      t.env.msgLen = t.env.prop.extractLsb' 0 10 ∧ t.env.encRaw = t.env.prop.extractLsb' 10 3 ∧
      (t.env.encRaw = 0#3 → t.env.encMode = 0#2) ∧ (t.env.encRaw = 1#3 → t.env.encMode = 1#2) ∧
      (2 ≤ t.env.encRaw.toNat → t.env.encMode = 2#2) ∧
      t.env.devHi = o 5 ++ o 6 ∧ t.env.devLo = o 7 ++ o 8 ++ o 9 ++ o 10 ∧
      (t.env.flags.devBcdOk = true ↔ ∀ k, 5 ≤ k → k ≤ 10 → decimalByte (o k)) ∧
      (t.env.flags.devBcdOk = true ↔ (digitString (s.outBytes 5 6)).isSome = true) ∧
      t.status.err = (if t.env.flags.devBcdOk then 0#4 else 5#4) ∧
      t.env.flags.isValid =
        (t.env.flags.lenOk && t.env.flags.startOk && t.env.flags.endOk && t.env.flags.cksOk)

/-- R101 to R104 and R106: the trailer, framing, checksum, validity and body of a frame, read only where `n ≥ 15`, and
the cause they leave. -/
def Obligations.EnvelopeJudgesTheFrame : Prop :=
  ∀ (s : State) (n : Nat) (o : Nat → Byte), n = s.outLen.toNat → o = s.outByte →
    ∃ t, exec .envelope s = .next t ∧
      (t.env.flags.loaded = true ↔ 13 ≤ n) ∧ (t.env.flags.lenOk = true ↔ 15 ≤ n) ∧
      (15 ≤ n →
        (t.env.flags.startOk = true ↔ o 0 = 0x7E#8) ∧ (t.env.flags.endOk = true ↔ o (n - 1) = 0x7E#8) ∧
        t.env.cksCalc = ((s.frame.drop 1).take (n - 3)).foldl (fun x b => x ^^^ b) 0#8 ∧
        t.env.cksRx = o (n - 2) ∧ (t.env.flags.cksOk = true ↔ t.env.cksCalc = t.env.cksRx) ∧
        t.env.bodyOff = 13#16 ∧ t.env.bodyLen.toNat = n - 15 ∧
        t.env.bodyOff.toNat + t.env.bodyLen.toNat = n - 2) ∧
      (n < 15 →
        t.env.flags.startOk = false ∧ t.env.flags.endOk = false ∧ t.env.flags.cksOk = false ∧
        t.env.cksCalc = 0#8 ∧ t.env.cksRx = 0#8 ∧ t.env.bodyOff = 0#16 ∧ t.env.bodyLen = 0#16 ∧
        t.status.cause = 7#4) ∧
      (t.env.flags.isValid = true ↔
        t.env.flags.lenOk = true ∧ t.env.flags.startOk = true ∧ t.env.flags.endOk = true ∧
        t.env.flags.cksOk = true) ∧
      CauseTold t

/-- R39 and R77: the digits of the device number, from the registers and from the frame. -/
def Obligations.DeviceDigitsInOrder : Prop :=
  ∀ s : State, 13 ≤ s.outLen.toNat →
    ∃ t, exec .envelope s = .next t ∧
      ∀ j, j < 6 →
        ((t.env.devHi ++ t.env.devLo : BitVec 48).extractLsb' (44 - 8 * j) 4).toNat = (s.outByte (5 + j)).toNat / 16 ∧
        ((t.env.devHi ++ t.env.devLo : BitVec 48).extractLsb' (40 - 8 * j) 4).toNat = (s.outByte (5 + j)).toNat % 16

/-- R108: the laws of the checksum. `s'` differs from `s` in the named bytes of the frame only. -/
def Obligations.ChecksumLaws : Prop :=
  ∀ (s s' : State) (n : Nat), n = s.outLen.toNat → s'.outLen = s.outLen → 15 ≤ n →
    ∃ t t', exec .envelope s = .next t ∧ exec .envelope s' = .next t' ∧
      (∀ k b, 1 ≤ k → k ≤ n - 3 → b < 8 → s'.outByte k = s.outByte k ^^^ (1#8 <<< b) →
        (∀ j, j ≠ k → s'.outByte j = s.outByte j) →
        t'.env.cksCalc = t.env.cksCalc ^^^ (1#8 <<< b) ∧
        (t.env.flags.cksOk = true → t'.env.flags.cksOk = false)) ∧
      (∀ b, b < 8 → s'.outByte (n - 2) = s.outByte (n - 2) ^^^ (1#8 <<< b) →
        (∀ j, j ≠ n - 2 → s'.outByte j = s.outByte j) →
        t.env.flags.cksOk = true → t'.env.flags.cksOk = false) ∧
      (∀ k l b, 1 ≤ k → k < l → l ≤ n - 3 → b < 8 →
        s'.outByte k = s.outByte k ^^^ (1#8 <<< b) → s'.outByte l = s.outByte l ^^^ (1#8 <<< b) →
        (∀ j, j ≠ k → j ≠ l → s'.outByte j = s.outByte j) →
        t'.env.cksCalc = t.env.cksCalc ∧ t'.env.flags.cksOk = t.env.flags.cksOk) ∧
      (∀ k l, 1 ≤ k → k < l → l ≤ n - 3 → s'.outByte k = s.outByte l → s'.outByte l = s.outByte k →
        (∀ j, j ≠ k → j ≠ l → s'.outByte j = s.outByte j) →
        t'.env.cksCalc = t.env.cksCalc) ∧
      (∀ b, b < 8 → s'.outByte 0 = s.outByte 0 ^^^ (1#8 <<< b) → (∀ j, j ≠ 0 → s'.outByte j = s.outByte j) →
        (t.env.flags.startOk = true → t'.env.flags.startOk = false) ∧
        t'.env.flags.endOk = t.env.flags.endOk ∧ t'.env.flags.cksOk = t.env.flags.cksOk) ∧
      (∀ b, b < 8 → s'.outByte (n - 1) = s.outByte (n - 1) ^^^ (1#8 <<< b) →
        (∀ j, j ≠ n - 1 → s'.outByte j = s.outByte j) →
        (t.env.flags.endOk = true → t'.env.flags.endOk = false) ∧
        t'.env.flags.startOk = t.env.flags.startOk ∧ t'.env.flags.cksOk = t.env.flags.cksOk)

/-! ### DECODE_FRAME -/

/-- R110, R111 and R113: DECODE_FRAME is UNESCAPE, then ENVELOPE, then the verdict, whose class and error replace those
the two steps left. The first failing check in the order of R113 gives the error. -/
def Obligations.DecodeFrameGivesTheVerdict : Prop :=
  (∀ v : Word, v &&& 0x0000010F#32 = 0x00000103#32 → decode (.ctrl v) = .ok .decodeFrame) ∧
  ∀ s : State,
    (s.ChunkReady →
      ∃ u v t, exec .unescape s = .next u ∧ exec .envelope u = .next v ∧ exec .decodeFrame s = .next t ∧
        t = { v with status := { v.status with cls := t.status.cls, err := t.status.err } } ∧
        (v.env.flags.loaded = false → t.status.cls = 0#2 ∧ t.status.err = 4#4) ∧
        (v.env.flags.loaded = true → v.env.msgType ≠ 0x0200#16 → Config.recognized v.env.msgType = false →
          t.status.cls = 3#2 ∧ t.status.err = 1#4) ∧
        (v.env.flags.loaded = true → v.env.msgType = 0x0200#16 → t.status.cls = 2#2) ∧
        (v.env.flags.loaded = true → v.env.msgType ≠ 0x0200#16 → Config.recognized v.env.msgType = true →
          t.status.cls = 1#2) ∧
        (v.env.flags.loaded = true → (v.env.msgType = 0x0200#16 ∨ Config.recognized v.env.msgType = true) →
          (v.env.flags.devBcdOk = false → t.status.err = 5#4) ∧
          (v.env.flags.devBcdOk = true → v.env.flags.isValid = false → t.status.err = 4#4) ∧
          (v.env.flags.devBcdOk = true → v.env.flags.isValid = true → t.status.err = 0#4))) ∧
    (Config.maxInLen < s.inLen.toNat →
      exec .decodeFrame s =
        .next { s with status := { s.status.completed errBounds causeNone with cls := 0#2 } }) ∧
    (s.inLen.toNat ≤ Config.maxInLen → (∃ k, k < s.inLen.toNat ∧ s.inByte k = none) →
      exec .decodeFrame s = .fault .unwrittenInput)

/-! ### BCD -/

/-- R92: the BCD command, in its bounds and out of them. -/
def Obligations.BcdConvertsTheField : Prop :=
  (∀ v : Word, v &&& 0x0000010F#32 = 0x00000104#32 → decode (.ctrl v) = .ok .bcd) ∧
  ∀ (s : State) (f c : Nat), f = s.bcdOff.toNat → c = s.bcdCnt.toNat →
    (c ≤ 8 → f + c ≤ s.outLen.toNat →
      ∃ t, exec .bcd s = .next t ∧
        t = { s with bcd := t.bcd, status := s.status.completed t.status.err causeNone } ∧
        (∀ j, j < c → t.bcd.dig.extractLsb' (8 * (c - 1 - j)) 8 = s.outByte (f + j)) ∧
        t.bcd.dig.toNat < 256 ^ c ∧
        ((∀ j, j < c → decimalByte (s.outByte (f + j))) →
          t.bcd.ok = true ∧ t.bcd.val.toNat = decimalSum (digits (s.outBytes f c)) ∧ t.status.err = 0#4) ∧
        (¬(∀ j, j < c → decimalByte (s.outByte (f + j))) →
          t.bcd.ok = false ∧ t.bcd.val = 0#64 ∧ t.status.err = 5#4)) ∧
    (8 < c ∨ s.outLen.toNat < f + c →
      exec .bcd s = .next { s with status := s.status.completed errBounds causeNone })

/-- R41: the 64-bit value the two digit registers hold after a BCD command, and its digits. -/
def Obligations.BcdDigitRegisters : Prop :=
  ∀ (s : State) (f c : Nat), f = s.bcdOff.toNat → c = s.bcdCnt.toNat → c ≤ 8 → f + c ≤ s.outLen.toNat →
    ∃ t, exec .bcd s = .next t ∧
      (t.readReg .bcdDigHi ++ t.readReg .bcdDigLo : BitVec 64).toNat = memRead s.outByte f c ∧
      (c = 0 → (t.readReg .bcdDigHi ++ t.readReg .bcdDigLo : BitVec 64) = 0#64) ∧
      ∀ k, k < 2 * c →
        some (((t.readReg .bcdDigHi ++ t.readReg .bcdDigLo : BitVec 64).extractLsb' (4 * (2 * c - 1 - k)) 4).toNat) =
          (digits (s.outBytes f c))[k]?

/-- R42 and R91: the 64-bit value the two value registers hold: the digits as a base-10 numeral when every nibble is a
digit, else 0, and never above `10^16 - 1`. -/
def Obligations.BcdValueRegisters : Prop :=
  ∀ (s : State) (f c : Nat), f = s.bcdOff.toNat → c = s.bcdCnt.toNat → c ≤ 8 → f + c ≤ s.outLen.toNat →
    ∃ t, exec .bcd s = .next t ∧
      (t.readReg .bcdValHi ++ t.readReg .bcdValLo : BitVec 64).toNat =
        (if t.bcd.ok then decimalSum (digits (s.outBytes f c)) else 0) ∧
      (t.readReg .bcdValHi ++ t.readReg .bcdValLo : BitVec 64).toNat ≤ 10 ^ 16 - 1

/-- R93: the laws of one BCD byte. -/
def Obligations.BcdByteLaws : Prop :=
  (∀ (s : State) (d1 d2 : Nat), d1 ≤ 9 → d2 ≤ 9 → s.bcdCnt = 1#4 → s.bcdOff.toNat < s.outLen.toNat →
    (s.outByte s.bcdOff.toNat).toNat = 16 * d1 + d2 →
    ∃ t, exec .bcd s = .next t ∧ t.bcd.ok = true ∧ t.bcd.val.toNat = 10 * d1 + d2 ∧
      digitString (s.outBytes s.bcdOff.toNat 1) = some [BitVec.ofNat 8 (0x30 + d1), BitVec.ofNat 8 (0x30 + d2)]) ∧
  (∀ s : State, s.bcdCnt = 1#4 → s.bcdOff.toNat < s.outLen.toNat →
    (9 < (s.outByte s.bcdOff.toNat).toNat / 16 ∨ 9 < (s.outByte s.bcdOff.toNat).toNat % 16) →
    ∃ t, exec .bcd s = .next t ∧ t.status.err = 5#4) ∧
  ((List.range 256).filter (fun n => bcdValid [BitVec.ofNat 8 n])).length = 100

/-! ### Reserved commands, errors and completion -/

/-- R120: a START with a reserved `OP` is accepted and latched like any other, and the command completes with
ILLEGAL_COMMAND and writes nothing else. -/
def Obligations.ReservedCommandsComplete : Prop :=
  (∀ (s : State) (v : Word), v.getLsbD 8 = true → reservedOp (v.extractLsb' 0 4) = true → s.status.busy = false →
    ∃ t, exec (.wr 0x00000#18 v) s = .next t ∧ t.pendOp = v.extractLsb' 0 4 ∧ t.status.busy = true ∧
      t.status.cause = 0#4) ∧
  ∀ s t : State,
    t = { s with status := { s.status with busy := false, done := true, err := 8#4 } } →
    exec .illegalOp0 s = .next t ∧ exec .illegalOp5 s = .next t ∧ (∀ low, exec (.illegalOp6to7 low) s = .next t) ∧
    (∀ low, exec (.illegalOp8to15 low) s = .next t) ∧
    ∀ op : BitVec 4, reservedOp op = true → exec (decodeOp op) s = .next t

/-- R119: when BOUNDS is raised, and that it writes `ERR`, `CAUSE` (and `CLASS` for DECODE_FRAME) and nothing else. -/
def Obligations.BoundsLeavesAllElse : Prop :=
  ∀ s : State,
    (Config.maxInLen < s.inLen.toNat →
      exec .unescape s = .next { s with status := s.status.completed 9#4 0#4 } ∧
      exec .decodeFrame s = .next { s with status := { s.status.completed 9#4 0#4 with cls := 0#2 } }) ∧
    ((8 < s.bcdCnt.toNat ∨ s.outLen.toNat < s.bcdOff.toNat + s.bcdCnt.toNat) →
      exec .bcd s = .next { s with status := s.status.completed 9#4 0#4 }) ∧
    (∀ (op : BitVec 4) (t : State), exec (decodeOp op) s = .next t → t.status.err = 9#4 →
      (op = 1#4 ∧ Config.maxInLen < s.inLen.toNat) ∨ (op = 3#4 ∧ Config.maxInLen < s.inLen.toNat) ∨
      (op = 4#4 ∧ (8 < s.bcdCnt.toNat ∨ s.outLen.toNat < s.bcdOff.toNat + s.bcdCnt.toNat)))

/-- R122: completion. Whatever the command, `BUSY` falls and `DONE` rises in its one step, `IRQ` follows `CTRL.IE`, and
what the host writes stays as it was. -/
def Obligations.EveryCommandCompletes : Prop :=
  ∀ (op : BitVec 4) (s t : State), exec (decodeOp op) s = .next t →
    t.status.busy = false ∧ t.status.done = true ∧ t.irq = s.ctrlIe ∧ t.status.haz = s.status.haz ∧
    t.ctrlOp = s.ctrlOp ∧ t.ctrlIe = s.ctrlIe ∧ t.inLen = s.inLen ∧ t.bcdOff = s.bcdOff ∧ t.bcdCnt = s.bcdCnt ∧
    t.inBuf = s.inBuf ∧ t.pendOp = s.pendOp ∧ t.pending = s.pending ∧ t.busData = s.busData

/-- R115: the results of a command depend on its inputs alone: two states that agree on them end alike. -/
def Obligations.CommandsDependOnTheirInputsOnly : Prop :=
  ∀ s s' : State,
    (s.ChunkReady → s'.inLen = s.inLen → (∀ k, k < s.inLen.toNat → s'.inByte k = s.inByte k) →
      ∃ t t' u u', exec .unescape s = .next t ∧ exec .unescape s' = .next t' ∧ exec .decodeFrame s = .next u ∧
        exec .decodeFrame s' = .next u' ∧
        t'.outLen = t.outLen ∧ t'.frame = t.frame ∧ t'.status.err = t.status.err ∧
        t'.status.cause = t.status.cause ∧
        u'.outLen = u.outLen ∧ u'.frame = u.frame ∧ u'.env = u.env ∧ u'.status.err = u.status.err ∧
        u'.status.cause = u.status.cause ∧ u'.status.cls = u.status.cls) ∧
    (Config.maxInLen < s.inLen.toNat → s'.inLen = s.inLen →
      ∃ t t' u u', exec .unescape s = .next t ∧ exec .unescape s' = .next t' ∧ exec .decodeFrame s = .next u ∧
        exec .decodeFrame s' = .next u' ∧ t'.status.err = t.status.err ∧ t'.status.cause = t.status.cause ∧
        u'.status.err = u.status.err ∧ u'.status.cause = u.status.cause ∧ u'.status.cls = u.status.cls) ∧
    (s'.outLen = s.outLen → (∀ k, k < s.outLen.toNat → s'.outByte k = s.outByte k) →
      ∃ t t', exec .envelope s = .next t ∧ exec .envelope s' = .next t' ∧ t'.env = t.env ∧
        t'.status.err = t.status.err ∧ t'.status.cause = t.status.cause) ∧
    (s'.outLen = s.outLen → s'.bcdOff = s.bcdOff → s'.bcdCnt = s.bcdCnt →
      (∀ k, k < s.outLen.toNat → s'.outByte k = s.outByte k) →
      ∃ t t', exec .bcd s = .next t ∧ exec .bcd s' = .next t' ∧ t'.status.err = t.status.err ∧
        t'.status.cause = t.status.cause ∧
        (s.bcdCnt.toNat ≤ 8 → s.bcdOff.toNat + s.bcdCnt.toNat ≤ s.outLen.toNat → t'.bcd = t.bcd)) ∧
    (∀ op, reservedOp op = true →
      ∃ t t', exec (decodeOp op) s = .next t ∧ exec (decodeOp op) s' = .next t' ∧ t'.status.err = t.status.err)

/-! ### Issuing and acknowledging -/

/-- R109: a `CTRL` write with START while idle latches its `OP`, sets `BUSY` and clears `DONE`, `ERR` and `CAUSE`; how
long the command then takes is free, and then the engine performs it: when it moves is the model's scheduling (log
entry 4). While a command runs the write is dropped and sets `HAZ`. -/
def Obligations.StartIssuesTheCommand : Prop :=
  (∀ (s : State) (v : Word), v.getLsbD 8 = true →
    (s.status.busy = false →
      ∃ t, exec (.wr 0x00000#18 v) s = .next t ∧
        t = { s with ctrlOp := v.extractLsb' 0 4, ctrlIe := v.getLsbD 16, pendOp := v.extractLsb' 0 4,
                     status := { s.status with busy := true, done := false, err := 0#4, cause := 0#4 },
                     latency := t.latency, started := t.started }) ∧
    (s.status.busy = true → exec (.wr 0x00000#18 v) s = .next { s with status := { s.status with haz := true } })) ∧
  (∀ s : State, s.scanning = false → s.status.busy = true → (s.latency = 0 ∨ s.pending = []) →
    step s = exec (decodeOp s.pendOp) s)

/-- R68, R79 and R109: CMD and CMDI issue the command they name, with IE 0 and 1. Its code is 1 to 4, and the code is
that of the command named. -/
def Obligations.CmdIssuesTheNamedCommand : Prop :=
  (commandCode .unescape = 1#4 ∧ commandCode .envelope = 2#4 ∧ commandCode .decodeFrame = 3#4 ∧
    commandCode .bcd = 4#4) ∧
  (decodeOp (commandCode .unescape) = .unescape ∧ decodeOp (commandCode .envelope) = .envelope ∧
    decodeOp (commandCode .decodeFrame) = .decodeFrame ∧ decodeOp (commandCode .bcd) = .bcd) ∧
  ∀ (s : State) (c : Command) (op : BitVec 4), op = commandCode c →
    (s.status.busy = false →
      ∃ t u, exec (.cmd c) s = .next t ∧ exec (.cmdi c) s = .next u ∧
        t = { s with ctrlOp := op, ctrlIe := false, pendOp := op,
                     status := { s.status with busy := true, done := false, err := 0#4, cause := 0#4 },
                     latency := t.latency, started := t.started } ∧
        u = { s with ctrlOp := op, ctrlIe := true, pendOp := op,
                     status := { s.status with busy := true, done := false, err := 0#4, cause := 0#4 },
                     latency := u.latency, started := u.started }) ∧
    (s.status.busy = true →
      exec (.cmd c) s = .next { s with status := { s.status with haz := true } } ∧
      exec (.cmdi c) s = .next { s with status := { s.status with haz := true } })

/-- R52 and R68: a `CTRL` write without START stores OP and IE and issues nothing; while a command runs it is dropped. -/
def Obligations.ControlWriteWithoutStartStores : Prop :=
  ∀ (s : State) (op : BitVec 4) (ie : Bool),
    (s.status.busy = false → exec (.ctrlWriteNoStart op ie) s = .next { s with ctrlOp := op, ctrlIe := ie }) ∧
    (s.status.busy = true →
      exec (.ctrlWriteNoStart op ie) s = .next { s with status := { s.status with haz := true } })

/-- R79 and R123: ACK clears `DONE` and `HAZ`, whatever runs, and so `IRQ`, and changes nothing else. -/
def Obligations.AckClearsDoneAndHaz : Prop :=
  ∀ s : State, ∃ t, exec .ack s = .next t ∧
    t = { s with status := { s.status with done := false, haz := false } } ∧ t.irq = false

/-- R125: what raises, clears and masks `IRQ`. -/
def Obligations.IrqFollowsDoneAndEnable : Prop :=
  (∀ s : State, (s.irq = true ↔ s.status.done = true ∧ s.ctrlIe = true)) ∧
  (∀ (s : State) (v : Word), v.getLsbD 1 = true → ∃ t, exec (.wr 0x00004#18 v) s = .next t ∧ t.irq = false) ∧
  (∀ (s : State) (v : Word), s.status.busy = false → v.getLsbD 8 = true →
    ∃ t, exec (.wr 0x00000#18 v) s = .next t ∧ t.irq = false) ∧
  (∀ (s : State) (v : Word), s.status.busy = false → v.getLsbD 8 = false → v.getLsbD 16 = false →
    ∃ t, exec (.wr 0x00000#18 v) s = .next t ∧ t.irq = false ∧ t.status.done = s.status.done) ∧
  State.reset.irq = false

/-! ### Host-bus accesses -/

/-- R52: host register writes. After a START the latency and the number of the command, the model's own fields, are
left free (log entry 4). -/
def Obligations.RegisterWrites : Prop :=
  ∀ (s : State) (off : BitVec 18) (v : Word), off.toNat < 0x10000 → off.toNat % 4 = 0 →
    (0x50 ≤ off.toNat → exec (.wr off v) s = .next s) ∧
    (s.status.busy = true → off = 0x000#18 ∨ off = 0x008#18 ∨ off = 0x010#18 →
      exec (.wr off v) s = .next { s with status := { s.status with haz := true } }) ∧
    (off = 0x004#18 →
      exec (.wr off v) s =
        .next { s with status :=
          { s.status with done := (if v.getLsbD 1 then false else s.status.done),
                          haz := (if v.getLsbD 2 then false else s.status.haz) } }) ∧
    (s.status.busy = false → off = 0x000#18 → v.getLsbD 8 = false →
      exec (.wr off v) s = .next { s with ctrlOp := v.extractLsb' 0 4, ctrlIe := v.getLsbD 16 }) ∧
    (s.status.busy = false → off = 0x000#18 → v.getLsbD 8 = true →
      ∃ t, exec (.wr off v) s = .next t ∧
        t = { s with ctrlOp := v.extractLsb' 0 4, ctrlIe := v.getLsbD 16, pendOp := v.extractLsb' 0 4,
                     status := { s.status with busy := true, done := false, err := 0#4, cause := 0#4 },
                     latency := t.latency, started := t.started }) ∧
    (s.status.busy = false → off = 0x008#18 → exec (.wr off v) s = .next { s with inLen := v.extractLsb' 0 16 }) ∧
    (s.status.busy = false → off = 0x010#18 →
      exec (.wr off v) s = .next { s with bcdOff := v.extractLsb' 0 16, bcdCnt := v.extractLsb' 16 4 }) ∧
    (off = 0x00C#18 ∨ 0x14 ≤ off.toNat ∧ off.toNat ≤ 0x4C → exec (.wr off v) s = .next s)

/-- R53: host register reads. The value returned is a field of the model; nothing of the block changes. -/
def Obligations.RegisterReads : Prop :=
  ∀ (s : State) (off : BitVec 18), off.toNat < 0x10000 → off.toNat % 4 = 0 →
    (0x50 ≤ off.toNat → exec (.rd off) s = .next { s with busData := 0#32 }) ∧
    (∀ r : Reg, off = regOffset r → s.status.busy = false →
      exec (.rd off) s = .next { s with busData := s.readReg r }) ∧
    (∀ r : Reg, off = regOffset r → s.status.busy = true →
      (off = 0x000#18 ∨ off = 0x004#18 ∨ off = 0x008#18 ∨ off = 0x010#18 ∨ off = 0x04C#18) →
      exec (.rd off) s = .next { s with busData := s.readReg r }) ∧
    (s.status.busy = true → (off = 0x00C#18 ∨ 0x14 ≤ off.toNat ∧ off.toNat ≤ 0x48) →
      exec (.rd off) s = .next { s with busData := Config.draw s.draws off, draws := s.draws + 1 })

/-- R27 to R44: the offset of each register, and where its fields stand in its 32 bits. Every bit not named is 0. -/
def Obligations.RegisterLayout : Prop :=
  (regOffset .ctrl = 0x000#18 ∧ regOffset .status = 0x004#18 ∧ regOffset .inLen = 0x008#18 ∧
    regOffset .outLen = 0x00C#18 ∧ regOffset .bcdArg = 0x010#18 ∧ regOffset .envFlags = 0x014#18 ∧
    regOffset .msgType = 0x018#18 ∧ regOffset .prop = 0x01C#18 ∧ regOffset .propDec = 0x020#18 ∧
    regOffset .msgCounter = 0x024#18 ∧ regOffset .cks = 0x028#18 ∧ regOffset .devHi = 0x02C#18 ∧
    regOffset .devLo = 0x030#18 ∧ regOffset .body = 0x034#18 ∧ regOffset .bcdDigHi = 0x038#18 ∧
    regOffset .bcdDigLo = 0x03C#18 ∧ regOffset .bcdValHi = 0x040#18 ∧ regOffset .bcdValLo = 0x044#18 ∧
    regOffset .bcdFlags = 0x048#18 ∧ regOffset .cfg = 0x04C#18) ∧
  ∀ s : State,
    (s.readReg .ctrl).toNat = s.ctrlOp.toNat + 2 ^ 16 * s.ctrlIe.toNat ∧
    (s.readReg .status).toNat = s.status.busy.toNat + 2 * s.status.done.toNat + 4 * s.status.haz.toNat
      + 2 ^ 4 * s.status.err.toNat + 2 ^ 8 * s.status.cause.toNat + 2 ^ 12 * s.status.cls.toNat ∧
    (s.readReg .inLen).toNat = s.inLen.toNat ∧ (s.readReg .outLen).toNat = s.outLen.toNat ∧
    (s.readReg .bcdArg).toNat = s.bcdOff.toNat + 2 ^ 16 * s.bcdCnt.toNat ∧
    (s.readReg .envFlags).toNat = s.env.flags.loaded.toNat + 2 * s.env.flags.lenOk.toNat
      + 4 * s.env.flags.startOk.toNat + 8 * s.env.flags.endOk.toNat + 16 * s.env.flags.cksOk.toNat
      + 32 * s.env.flags.isValid.toNat + 64 * s.env.flags.devBcdOk.toNat ∧
    (s.readReg .msgType).toNat = s.env.msgType.toNat ∧ (s.readReg .prop).toNat = s.env.prop.toNat ∧
    (s.readReg .propDec).toNat = s.env.msgLen.toNat + 2 ^ 10 * s.env.encRaw.toNat + 2 ^ 16 * s.env.encMode.toNat ∧
    (s.readReg .msgCounter).toNat = s.env.msgCounter.toNat ∧
    (s.readReg .cks).toNat = s.env.cksCalc.toNat + 2 ^ 8 * s.env.cksRx.toNat ∧
    (s.readReg .devHi).toNat = s.env.devHi.toNat ∧ s.readReg .devLo = s.env.devLo ∧
    (s.readReg .body).toNat = s.env.bodyOff.toNat + 2 ^ 16 * s.env.bodyLen.toNat ∧
    (s.readReg .bcdDigHi ++ s.readReg .bcdDigLo : BitVec 64) = s.bcd.dig ∧
    (s.readReg .bcdValHi ++ s.readReg .bcdValLo : BitVec 64) = s.bcd.val ∧
    (s.readReg .bcdFlags).toNat = s.bcd.ok.toNat ∧ (s.readReg .cfg).toNat = Config.maxInLen

/-- R54: host byte writes. -/
def Obligations.ByteWrites : Prop :=
  ∀ (s : State) (k : BitVec 16) (b : Byte),
    (Config.maxInLen ≤ k.toNat → exec (.wrb k b) s = .next s) ∧
    (k.toNat < Config.maxInLen → s.status.busy = true →
      exec (.wrb k b) s = .next { s with status := { s.status with haz := true } }) ∧
    (k.toNat < Config.maxInLen → s.status.busy = false →
      ∃ t, exec (.wrb k b) s = .next t ∧ t.inByte k.toNat = some b ∧
        (∀ j, j ≠ k.toNat → t.inByte j = s.inByte j) ∧ t = { s with inBuf := t.inBuf }) ∧
    (∀ off : BitVec 18, 0x20000 ≤ off.toNat → s.hostAccess (.write1 off b) = s)

/-- R55: host byte reads. Above the buffer the OUT window reads 0 even while a command runs, as the model reads R26, R50
and R55 together (log entry 5). Nothing of the block changes. -/
def Obligations.ByteReads : Prop :=
  ∀ (s : State) (k : BitVec 16),
    (Config.maxInLen ≤ k.toNat → exec (.rdb .inp k) s = .next { s with busData := 0#32 }) ∧
    (∀ b, k.toNat < Config.maxInLen → s.inByte k.toNat = some b →
      exec (.rdb .inp k) s = .next { s with busData := b.setWidth 32 }) ∧
    (k.toNat < Config.maxInLen → s.inByte k.toNat = none →
      ∃ t, exec (.rdb .inp k) s = .next t ∧ t.busData.toNat < 256 ∧
        t = { s with busData := t.busData, draws := s.draws + 1 }) ∧
    (s.status.busy = false → k.toNat < Config.maxInLen → k.toNat < s.outLen.toNat →
      exec (.rdb .out k) s = .next { s with busData := (s.outByte k.toNat).setWidth 32 }) ∧
    (k.toNat < Config.maxInLen → (s.status.busy = true ∨ s.outLen.toNat ≤ k.toNat) →
      ∃ t, exec (.rdb .out k) s = .next t ∧ t.busData.toNat < 256 ∧
        t = { s with busData := t.busData, draws := s.draws + 1 }) ∧
    (Config.maxInLen ≤ k.toNat → exec (.rdb .out k) s = .next { s with busData := 0#32 })

/-- R138: while a command runs, a host read of a result is unspecified (a draw) and any other read is as usual; and
results stay as they are under whatever the host does. `OUT` has the indices below `MAX_IN_LEN` (R26). -/
def Obligations.ResultsReadAsDrawsWhileBusy : Prop :=
  (∀ s : State, s.status.busy = true →
    (∀ r : Reg, r ≠ .ctrl → r ≠ .status → r ≠ .inLen → r ≠ .bcdArg → r ≠ .cfg →
      exec (.rd (regOffset r)) s =
        .next { s with busData := Config.draw s.draws (regOffset r), draws := s.draws + 1 }) ∧
    (∀ r : Reg, r = .ctrl ∨ r = .status ∨ r = .inLen ∨ r = .bcdArg ∨ r = .cfg →
      exec (.rd (regOffset r)) s = .next { s with busData := s.readReg r }) ∧
    (∀ k : BitVec 16, k.toNat < Config.maxInLen → ∃ t, exec (.rdb .out k) s = .next t ∧
      t.busData = ((Config.draw s.draws (windowOffset .out k)).setWidth 8).setWidth 32 ∧
      t = { s with busData := t.busData, draws := s.draws + 1 }) ∧
    (∀ (k : BitVec 16) (b : Byte), k.toNat < Config.maxInLen → s.inByte k.toNat = some b →
      exec (.rdb .inp k) s = .next { s with busData := b.setWidth 32 })) ∧
  (∀ (i : Instr) (s t : State), byHost i = true → exec i s = .next t →
    t.outBuf = s.outBuf ∧ t.outLen = s.outLen ∧ t.env = s.env ∧ t.bcd = s.bcd ∧ t.status.cls = s.status.cls)

/-- R56: any other host access has no effect, and a read then returns 0. When the step of the access that the host
presents comes, and that it leaves one access less before the engine's step, is the model's (log entries 4 and 6). -/
def Obligations.OtherAccessesDoNothing : Prop :=
  (∀ (s : State) (off : BitVec 18),
    (∀ d, s.hostAccess (.write2 off d) = s) ∧ s.hostAccess (.read off .two) = { s with busData := 0#32 } ∧
    (off.toNat % 4 ≠ 0 ∨ 0x10000 ≤ off.toNat →
      (∀ d, s.hostAccess (.write4 off d) = s) ∧ s.hostAccess (.read off .four) = { s with busData := 0#32 }) ∧
    (off.toNat < 0x10000 ∨ 0x30000 ≤ off.toNat →
      (∀ d, s.hostAccess (.write1 off d) = s) ∧ s.hostAccess (.read off .one) = { s with busData := 0#32 })) ∧
  (∀ (s : State) (a : Access) (e : DecodeError) (rest : List HostInput), s.scanning = false →
    (s.status.busy = false ∨ s.latency ≠ 0) → s.pending = .access a :: rest → decode (.bus a) = .error e →
    ∃ t, step s = .next t ∧
      t = { s with pending := rest, latency := s.latency - 1, busData := t.busData } ∧
      (t.busData = s.busData ∨ t.busData = 0#32))

/-- R137: while a command runs, host writes to its inputs are dropped and set the sticky `HAZ`, and only a dropped
write sets it; a `STATUS` write is not dropped. -/
def Obligations.HazRecordsDroppedWrites : Prop :=
  (∀ (s : State) (v : Word), s.status.busy = true →
    exec (.wr 0x000#18 v) s = .next { s with status := { s.status with haz := true } } ∧
    exec (.wr 0x008#18 v) s = .next { s with status := { s.status with haz := true } } ∧
    exec (.wr 0x010#18 v) s = .next { s with status := { s.status with haz := true } } ∧
    (∀ (k : BitVec 16) (b : Byte), k.toNat < Config.maxInLen →
      exec (.wrb k b) s = .next { s with status := { s.status with haz := true } })) ∧
  (∀ (s : State) (v : Word),
    exec (.wr 0x004#18 v) s =
      .next { s with status :=
        { s.status with done := s.status.done && !v.getLsbD 1, haz := s.status.haz && !v.getLsbD 2 } }) ∧
  (∀ (i : Instr) (s t : State), exec i s = .next t → s.status.haz = true → t.status.haz = false →
    (∃ v : Word, i = .wr 0x004#18 v ∧ v.getLsbD 2 = true) ∨ i = .ack) ∧
  (∀ (i : Instr) (s t : State), exec i s = .next t → s.status.haz = false → t.status.haz = true →
    s.status.busy = true)

/-- R8, R62 and R137: the host never writes what the engine writes, and while a command runs it changes none of that
command's inputs either. -/
def Obligations.HostLeavesTheEngineAlone : Prop :=
  ∀ (i : Instr) (s t : State), byHost i = true → exec i s = .next t →
    t.outBuf = s.outBuf ∧ t.outLen = s.outLen ∧ t.env = s.env ∧ t.bcd = s.bcd ∧ t.cursorI = s.cursorI ∧
    t.cursorO = s.cursorO ∧ t.status.cls = s.status.cls ∧
    (s.status.busy = true →
      t.inBuf = s.inBuf ∧ t.inLen = s.inLen ∧ t.bcdOff = s.bcdOff ∧ t.bcdCnt = s.bcdCnt ∧ t.ctrlOp = s.ctrlOp ∧
      t.ctrlIe = s.ctrlIe ∧ t.pendOp = s.pendOp ∧ t.status.busy = true ∧ t.status.err = s.status.err ∧
      t.status.cause = s.status.cause ∧ t.latency = s.latency)

/-- R47: the writers of the status flags. `BUSY` rises by a START and falls by a command's completion, `DONE` rises by
a completion, the envelope flags change by ENVELOPE and DECODE_FRAME and the BCD flag by BCD. -/
def Obligations.FlagsHaveTheirWriters : Prop :=
  ∀ (i : Instr) (s t : State), exec i s = .next t →
    (s.status.busy = false → t.status.busy = true →
      (∃ v : Word, i = .wr 0x000#18 v ∧ v.getLsbD 8 = true) ∨ (∃ c, i = .cmd c) ∨ (∃ c, i = .cmdi c)) ∧
    (s.status.busy = true → t.status.busy = false → ∃ op, i = decodeOp op) ∧
    (s.status.done = false → t.status.done = true → ∃ op, i = decodeOp op) ∧
    (s.status.done = true → t.status.done = false →
      (∃ v : Word, i = .wr 0x000#18 v ∧ v.getLsbD 8 = true) ∨ (∃ v : Word, i = .wr 0x004#18 v ∧ v.getLsbD 1 = true) ∨
      (∃ c, i = .cmd c) ∨ (∃ c, i = .cmdi c) ∨ i = .ack) ∧
    (t.env.flags ≠ s.env.flags → i = .envelope ∨ i = .decodeFrame) ∧
    (t.bcd.ok ≠ s.bcd.ok → i = .bcd)

/-! ### Host programs -/

/-- R79: LOADIN's own step performs the first transaction of its expansion and leaves the others, the byte writes from
`IN[1]` on and then the `IN_LEN` write, to be presented next. One transaction a step is the model's form (log
entry 8). -/
def Obligations.LoadinPerformsItsFirstTransaction : Prop :=
  (∀ (s : State) (b : Byte) (bs : List Byte), ∃ u t, exec (.wrb 0x0000#16 b) s = .next u ∧
    exec (.loadin (b :: bs)) s = .next t ∧ t = { u with pending := t.pending } ∧
    t.pending =
      (loadBytes 1 bs ++ [Access.write4 (regOffset .inLen) (BitVec.ofNat 32 (bs.length + 1))]).map HostInput.access
        ++ s.pending) ∧
  (∀ s : State, ∃ u, exec (.wr 0x008#18 0#32) s = .next u ∧ exec (.loadin []) s = .next u)

/-- R79: from an idle block, the `m+1` steps of LOADIN leave the bytes in `IN[0..m-1]` and `m` in `IN_LEN`, and change
no other byte of `IN` and nothing else of the block. -/
def Obligations.LoadinLoadsTheChunk : Prop :=
  ∀ (s : State) (bytes : List Byte) (rest : List HostInput), s.scanning = false → s.status.busy = false →
    bytes.length ≤ Config.maxInLen → s.pending = .line (.loadin bytes) :: rest →
    ∃ t, Host.Core.run Sys2Proof.core (bytes.length + 1) s = .next t ∧ t.inLen.toNat = bytes.length ∧
      (∀ k, k < bytes.length → t.inByte k = bytes[k]?) ∧ (∀ k, bytes.length ≤ k → t.inByte k = s.inByte k) ∧
      t = { s with inBuf := t.inBuf, inLen := t.inLen, pending := rest, latency := t.latency }

/-- R79: WAITDONE reads `STATUS`, and again while its bit 1 is 0. -/
def Obligations.WaitdonePollsStatus : Prop :=
  ∀ s : State,
    (s.status.done = true → exec .waitdone s = .next { s with busData := s.readReg .status }) ∧
    (s.status.done = false →
      exec .waitdone s =
        .next { s with busData := s.readReg .status, pending := .line .waitdone :: s.pending })

/-- R31, R52 and R79: BCDARG writes `(cnt << 16) | off` to `BCD_ARG`, of which bits 15:0 and 19:16 are kept: `off` and
`cnt` themselves where they fit those fields. While a command runs it is dropped. -/
def Obligations.BcdargWritesTheOperands : Prop :=
  ∀ (s : State) (off : Word) (cnt : BitVec 16),
    (s.status.busy = false →
      ∃ t, exec (.bcdarg off cnt) s = .next t ∧ t = { s with bcdOff := t.bcdOff, bcdCnt := t.bcdCnt } ∧
        t.bcdOff = off.extractLsb' 0 16 ∧ t.bcdCnt = cnt.extractLsb' 0 4 ||| off.extractLsb' 16 4 ∧
        (off.toNat < 65536 → cnt.toNat < 16 → t.bcdOff.toNat = off.toNat ∧ t.bcdCnt.toNat = cnt.toNat)) ∧
    (s.status.busy = true → exec (.bcdarg off cnt) s = .next { s with status := { s.status with haz := true } })

/-! ### Parameters -/

/-- R9, R50 and R112: the parameters keep the spec's constraints, and the window of `0x40000` bytes at `BASE` is
reached offset by offset and nowhere else. -/
def Obligations.ParametersKeepTheirConstraints : Prop :=
  15 ≤ Config.maxInLen ∧ Config.maxInLen ≤ 65535 ∧ Config.recognized 0x0100#16 = true ∧
  Config.recognized 0x00FF#16 = false ∧ Config.base % 0x40000 = 0 ∧
  (∀ off : BitVec 18, busOffset (busAddress off) = some off) ∧
  (∀ addr off, busOffset addr = some off → addr = busAddress off)
end

