-- ==== Sys2Proof/Laws/Decode.lean ====
section
/-! SUPPORT. The field functions of the decoder undo those of the encoder. -/

namespace Sys2Proof

@[simp] theorem wordOp_commandWord (op : BitVec 4) (start ie : Bool) : wordOp (commandWord op start ie) = op := by
  revert op start ie; decide

@[simp] theorem wordStart_commandWord (op : BitVec 4) (start ie : Bool) :
    wordStart (commandWord op start ie) = start := by
  revert op start ie; decide

@[simp] theorem wordIe_commandWord (op : BitVec 4) (start ie : Bool) : wordIe (commandWord op start ie) = ie := by
  revert op start ie; decide

theorem extractLsb'_append_high {m n : Nat} (x : BitVec m) (k : BitVec n) : (x ++ k).extractLsb' n m = x := by
  ext i h; simp [BitVec.getLsbD_append, BitVec.getLsbD_eq_getElem h]

theorem extractLsb'_append_low {m n : Nat} (x : BitVec m) (k : BitVec n) : (x ++ k).extractLsb' 0 n = k := by
  ext i h; simp [BitVec.getLsbD_append, h]

theorem append18_high (x : BitVec 2) (k : BitVec 16) : (x ++ k : BitVec (2 + 16)).extractLsb' 16 2 = x :=
  extractLsb'_append_high x k

theorem append18_low (x : BitVec 2) (k : BitVec 16) : (x ++ k : BitVec (2 + 16)).extractLsb' 0 16 = k :=
  extractLsb'_append_low x k

@[simp] theorem windowOf_windowOffset (win : Window) (k : BitVec 16) : windowOf (windowOffset win k) = some win := by
  cases win <;> unfold windowOf windowOffset <;> rw [append18_high] <;> rfl

@[simp] theorem windowIndex_windowOffset (win : Window) (k : BitVec 16) : windowIndex (windowOffset win k) = k := by
  cases win <;> exact append18_low _ k

/-- Inside its window an index stands at the window's base plus itself (R50). -/
theorem ofNat_inp {k : Nat} (h : k < 65536) : BitVec.ofNat 18 (0x10000 + k) = windowOffset .inp (BitVec.ofNat 16 k) := by
  apply BitVec.eq_of_toNat_eq
  have e : (windowOffset .inp (BitVec.ofNat 16 k)).toNat = (1#2 ++ BitVec.ofNat 16 k : BitVec (2 + 16)).toNat := rfl
  rw [e, BitVec.toNat_append, ← Nat.shiftLeft_add_eq_or_of_lt (BitVec.isLt _), Nat.shiftLeft_eq]
  simp only [BitVec.toNat_ofNat]
  omega

/-- What a command word with START and latched fields decodes to. -/
@[simp] theorem decodeCtrl_commandWord_start (op : BitVec 4) (ie : Bool) :
    decodeCtrl (commandWord op true ie) = decodeOp op := by simp [decodeCtrl]

@[simp] theorem decodeCtrl_commandWord_store (op : BitVec 4) (ie : Bool) :
    decodeCtrl (commandWord op false ie) = .ctrlWriteNoStart op ie := by simp [decodeCtrl]

/-- Everything a token decode can answer: the window is the token's, in the priority order of R70. -/
theorem decodeToken_cases (b0 : Byte) (b1 : Option Byte) :
    (b0 = Config.esc ∧ b1 = some Config.tagEsc ∧ decodeToken b0 b1 = .esc7d) ∨
    (b0 = Config.esc ∧ b1 = some Config.tagDelim ∧ decodeToken b0 b1 = .escDelim) ∨
    (b0 = Config.esc ∧ b1 ≠ some Config.tagEsc ∧ b1 ≠ some Config.tagDelim ∧ decodeToken b0 b1 = .lit7d) ∨
    (b0 ≠ Config.esc ∧ decodeToken b0 b1 = .lit b0) := by
  unfold decodeToken
  by_cases h : b0 = Config.esc <;> by_cases h1 : b1 = some Config.tagEsc <;>
    by_cases h2 : b1 = some Config.tagDelim <;> simp_all

/-- Everything an `OP` value can stand for (R68, R69). -/
theorem decodeOp_cases (op : BitVec 4) :
    (op = 1#4 ∧ decodeOp op = .unescape) ∨ (op = 2#4 ∧ decodeOp op = .envelope) ∨
    (op = 3#4 ∧ decodeOp op = .decodeFrame) ∨ (op = 4#4 ∧ decodeOp op = .bcd) ∨
    (op = 0#4 ∧ decodeOp op = .illegalOp0) ∨ (op = 5#4 ∧ decodeOp op = .illegalOp5) ∨
    ((op = 6#4 ∨ op = 7#4) ∧ decodeOp op = .illegalOp6to7 (op.extractLsb' 0 1)) ∨
    (8#4 ≤ op ∧ decodeOp op = .illegalOp8to15 (op.extractLsb' 0 3)) := by
  revert op; decide

end Sys2Proof
end

