-- ==== Sys2Proof/Laws/Memory.lean ====
section
/-! SUPPORT. Buffers: a read after a write, and the canonical form that every write keeps. -/

namespace Sys2Proof.Machine

@[simp] theorem Memory.read_nil (k : Nat) : Memory.read [] k = none := rfl

theorem Memory.read_write (m : Memory) (k j : Nat) (v : Byte) :
    (Memory.write m k v).read j = if j = k then some v else m.read j := by
  induction m with
  | nil => simp [Memory.write, Memory.read]
  | cons c m ih =>
    obtain ⟨a, b⟩ := c
    simp only [Memory.write]
    split
    · simp [Memory.read]
    · split
      · next h => subst h; simp only [Memory.read]; split <;> simp_all
      · next h => simp only [Memory.read, ih]; split <;> split <;> simp_all

@[simp] theorem Memory.read_write_same (m : Memory) (k : Nat) (v : Byte) :
    (Memory.write m k v).read k = some v := by simp [Memory.read_write]

theorem Memory.read_write_other (m : Memory) {k j : Nat} (v : Byte) (h : j ≠ k) :
    (Memory.write m k v).read j = m.read j := by simp [Memory.read_write, h]

theorem Memory.isSome_read_write (m : Memory) (k j : Nat) (v : Byte) (h : (m.read j).isSome = true) :
    ((Memory.write m k v).read j).isSome = true := by
  rw [Memory.read_write]; split <;> simp_all

theorem Memory.wfAbove_mono {m : Memory} {j k : Nat} (hjk : j ≤ k) (h : Memory.wfAbove k m = true) :
    Memory.wfAbove j m = true := by
  cases m with
  | nil => rfl
  | cons c m =>
    simp only [Memory.wfAbove, Bool.and_eq_true, decide_eq_true_eq] at h ⊢
    exact ⟨by omega, h.2⟩

theorem Memory.wfAbove_write {m : Memory} {j k : Nat} (v : Byte) (hjk : j < k) (h : Memory.wfAbove j m = true) :
    Memory.wfAbove j (Memory.write m k v) = true := by
  induction m generalizing j with
  | nil => simp [Memory.write, Memory.wfAbove, hjk]
  | cons c m ih =>
    obtain ⟨a, b⟩ := c
    simp only [Memory.wfAbove, Bool.and_eq_true, decide_eq_true_eq] at h
    simp only [Memory.write]
    split
    · simp_all [Memory.wfAbove]
    · split
      · simp_all [Memory.wfAbove]
      · simp only [Memory.wfAbove, Bool.and_eq_true, decide_eq_true_eq]
        exact ⟨h.1, ih (by omega) h.2⟩

/-- A write keeps the canonical form. -/
theorem Memory.wf_write {m : Memory} (k : Nat) (v : Byte) (h : m.wf = true) : (Memory.write m k v).wf = true := by
  cases m with
  | nil => rfl
  | cons c m =>
    obtain ⟨a, b⟩ := c
    simp only [Memory.wf] at h
    simp only [Memory.write]
    split
    · simp_all [Memory.wf, Memory.wfAbove]
    · split
      · simp_all [Memory.wf]
      · exact Memory.wfAbove_write v (by omega) h

/-- A write below a bound keeps every index below it. -/
theorem Memory.within_write {m : Memory} {n k : Nat} (v : Byte) (hk : k < n) (h : m.within n = true) :
    (Memory.write m k v).within n = true := by
  induction m with
  | nil => simp [Memory.write, Memory.within, hk]
  | cons c m ih =>
    obtain ⟨a, b⟩ := c
    have h' : a < n ∧ Memory.within m n = true := by
      simpa only [Memory.within, List.all_cons, Bool.and_eq_true, decide_eq_true_eq] using h
    have cons (x : Nat) (y : Byte) (l : Memory) (hx : x < n) (hl : Memory.within l n = true) :
        Memory.within ((x, y) :: l) n = true := by
      simp only [Memory.within, List.all_cons, Bool.and_eq_true, decide_eq_true_eq]; exact ⟨hx, hl⟩
    simp only [Memory.write]
    split
    · exact cons k v _ hk h
    · split
      · exact cons k v _ hk h'.2
      · exact cons a b _ h'.1 (ih h'.2)

/-- The buffers after reset are canonical. -/
theorem reset_buffers_wf : State.reset.inBuf.wf = true ∧ State.reset.outBuf.wf = true := ⟨rfl, rfl⟩

end Sys2Proof.Machine
end

