-- ==== Sys2Proof/Laws/State.lean ====
section
/-! SUPPORT. What each update of the state makes of each field: one lemma per field per update, true by rfl, so that
no later proof unfolds an update. -/

namespace Sys2Proof.Machine

section withErrFields

variable (s : State) (e : BitVec 4)

@[simp] theorem State.withErr_ctrlOp : (s.withErr e).ctrlOp = s.ctrlOp := rfl
@[simp] theorem State.withErr_ctrlIe : (s.withErr e).ctrlIe = s.ctrlIe := rfl
@[simp] theorem State.withErr_status : (s.withErr e).status = { s.status with err := e } := rfl
@[simp] theorem State.withErr_inLen : (s.withErr e).inLen = s.inLen := rfl
@[simp] theorem State.withErr_outLen : (s.withErr e).outLen = s.outLen := rfl
@[simp] theorem State.withErr_bcdOff : (s.withErr e).bcdOff = s.bcdOff := rfl
@[simp] theorem State.withErr_bcdCnt : (s.withErr e).bcdCnt = s.bcdCnt := rfl
@[simp] theorem State.withErr_env : (s.withErr e).env = s.env := rfl
@[simp] theorem State.withErr_bcd : (s.withErr e).bcd = s.bcd := rfl
@[simp] theorem State.withErr_pendOp : (s.withErr e).pendOp = s.pendOp := rfl
@[simp] theorem State.withErr_cursorI : (s.withErr e).cursorI = s.cursorI := rfl
@[simp] theorem State.withErr_cursorO : (s.withErr e).cursorO = s.cursorO := rfl
@[simp] theorem State.withErr_inBuf : (s.withErr e).inBuf = s.inBuf := rfl
@[simp] theorem State.withErr_outBuf : (s.withErr e).outBuf = s.outBuf := rfl
@[simp] theorem State.withErr_scanning : (s.withErr e).scanning = s.scanning := rfl
@[simp] theorem State.withErr_pending : (s.withErr e).pending = s.pending := rfl
@[simp] theorem State.withErr_latency : (s.withErr e).latency = s.latency := rfl
@[simp] theorem State.withErr_started : (s.withErr e).started = s.started := rfl
@[simp] theorem State.withErr_draws : (s.withErr e).draws = s.draws := rfl
@[simp] theorem State.withErr_busData : (s.withErr e).busData = s.busData := rfl

end withErrFields

section withCauseFields

variable (s : State) (c : BitVec 4)

@[simp] theorem State.withCause_ctrlOp : (s.withCause c).ctrlOp = s.ctrlOp := rfl
@[simp] theorem State.withCause_ctrlIe : (s.withCause c).ctrlIe = s.ctrlIe := rfl
@[simp] theorem State.withCause_status : (s.withCause c).status = { s.status with cause := c } := rfl
@[simp] theorem State.withCause_inLen : (s.withCause c).inLen = s.inLen := rfl
@[simp] theorem State.withCause_outLen : (s.withCause c).outLen = s.outLen := rfl
@[simp] theorem State.withCause_bcdOff : (s.withCause c).bcdOff = s.bcdOff := rfl
@[simp] theorem State.withCause_bcdCnt : (s.withCause c).bcdCnt = s.bcdCnt := rfl
@[simp] theorem State.withCause_env : (s.withCause c).env = s.env := rfl
@[simp] theorem State.withCause_bcd : (s.withCause c).bcd = s.bcd := rfl
@[simp] theorem State.withCause_pendOp : (s.withCause c).pendOp = s.pendOp := rfl
@[simp] theorem State.withCause_cursorI : (s.withCause c).cursorI = s.cursorI := rfl
@[simp] theorem State.withCause_cursorO : (s.withCause c).cursorO = s.cursorO := rfl
@[simp] theorem State.withCause_inBuf : (s.withCause c).inBuf = s.inBuf := rfl
@[simp] theorem State.withCause_outBuf : (s.withCause c).outBuf = s.outBuf := rfl
@[simp] theorem State.withCause_scanning : (s.withCause c).scanning = s.scanning := rfl
@[simp] theorem State.withCause_pending : (s.withCause c).pending = s.pending := rfl
@[simp] theorem State.withCause_latency : (s.withCause c).latency = s.latency := rfl
@[simp] theorem State.withCause_started : (s.withCause c).started = s.started := rfl
@[simp] theorem State.withCause_draws : (s.withCause c).draws = s.draws := rfl
@[simp] theorem State.withCause_busData : (s.withCause c).busData = s.busData := rfl

end withCauseFields

section withClassFields

variable (s : State) (c : BitVec 2)

@[simp] theorem State.withClass_ctrlOp : (s.withClass c).ctrlOp = s.ctrlOp := rfl
@[simp] theorem State.withClass_ctrlIe : (s.withClass c).ctrlIe = s.ctrlIe := rfl
@[simp] theorem State.withClass_status : (s.withClass c).status = { s.status with cls := c } := rfl
@[simp] theorem State.withClass_inLen : (s.withClass c).inLen = s.inLen := rfl
@[simp] theorem State.withClass_outLen : (s.withClass c).outLen = s.outLen := rfl
@[simp] theorem State.withClass_bcdOff : (s.withClass c).bcdOff = s.bcdOff := rfl
@[simp] theorem State.withClass_bcdCnt : (s.withClass c).bcdCnt = s.bcdCnt := rfl
@[simp] theorem State.withClass_env : (s.withClass c).env = s.env := rfl
@[simp] theorem State.withClass_bcd : (s.withClass c).bcd = s.bcd := rfl
@[simp] theorem State.withClass_pendOp : (s.withClass c).pendOp = s.pendOp := rfl
@[simp] theorem State.withClass_cursorI : (s.withClass c).cursorI = s.cursorI := rfl
@[simp] theorem State.withClass_cursorO : (s.withClass c).cursorO = s.cursorO := rfl
@[simp] theorem State.withClass_inBuf : (s.withClass c).inBuf = s.inBuf := rfl
@[simp] theorem State.withClass_outBuf : (s.withClass c).outBuf = s.outBuf := rfl
@[simp] theorem State.withClass_scanning : (s.withClass c).scanning = s.scanning := rfl
@[simp] theorem State.withClass_pending : (s.withClass c).pending = s.pending := rfl
@[simp] theorem State.withClass_latency : (s.withClass c).latency = s.latency := rfl
@[simp] theorem State.withClass_started : (s.withClass c).started = s.started := rfl
@[simp] theorem State.withClass_draws : (s.withClass c).draws = s.draws := rfl
@[simp] theorem State.withClass_busData : (s.withClass c).busData = s.busData := rfl

end withClassFields

section setHazFields

variable (s : State)

@[simp] theorem State.setHaz_ctrlOp : (s.setHaz).ctrlOp = s.ctrlOp := rfl
@[simp] theorem State.setHaz_ctrlIe : (s.setHaz).ctrlIe = s.ctrlIe := rfl
@[simp] theorem State.setHaz_status : (s.setHaz).status = { s.status with haz := true } := rfl
@[simp] theorem State.setHaz_inLen : (s.setHaz).inLen = s.inLen := rfl
@[simp] theorem State.setHaz_outLen : (s.setHaz).outLen = s.outLen := rfl
@[simp] theorem State.setHaz_bcdOff : (s.setHaz).bcdOff = s.bcdOff := rfl
@[simp] theorem State.setHaz_bcdCnt : (s.setHaz).bcdCnt = s.bcdCnt := rfl
@[simp] theorem State.setHaz_env : (s.setHaz).env = s.env := rfl
@[simp] theorem State.setHaz_bcd : (s.setHaz).bcd = s.bcd := rfl
@[simp] theorem State.setHaz_pendOp : (s.setHaz).pendOp = s.pendOp := rfl
@[simp] theorem State.setHaz_cursorI : (s.setHaz).cursorI = s.cursorI := rfl
@[simp] theorem State.setHaz_cursorO : (s.setHaz).cursorO = s.cursorO := rfl
@[simp] theorem State.setHaz_inBuf : (s.setHaz).inBuf = s.inBuf := rfl
@[simp] theorem State.setHaz_outBuf : (s.setHaz).outBuf = s.outBuf := rfl
@[simp] theorem State.setHaz_scanning : (s.setHaz).scanning = s.scanning := rfl
@[simp] theorem State.setHaz_pending : (s.setHaz).pending = s.pending := rfl
@[simp] theorem State.setHaz_latency : (s.setHaz).latency = s.latency := rfl
@[simp] theorem State.setHaz_started : (s.setHaz).started = s.started := rfl
@[simp] theorem State.setHaz_draws : (s.setHaz).draws = s.draws := rfl
@[simp] theorem State.setHaz_busData : (s.setHaz).busData = s.busData := rfl

end setHazFields

section completeFields

variable (s : State)

@[simp] theorem State.complete_ctrlOp : (s.complete).ctrlOp = s.ctrlOp := rfl
@[simp] theorem State.complete_ctrlIe : (s.complete).ctrlIe = s.ctrlIe := rfl
@[simp] theorem State.complete_status : (s.complete).status = { s.status with busy := false, done := true } := rfl
@[simp] theorem State.complete_inLen : (s.complete).inLen = s.inLen := rfl
@[simp] theorem State.complete_outLen : (s.complete).outLen = s.outLen := rfl
@[simp] theorem State.complete_bcdOff : (s.complete).bcdOff = s.bcdOff := rfl
@[simp] theorem State.complete_bcdCnt : (s.complete).bcdCnt = s.bcdCnt := rfl
@[simp] theorem State.complete_env : (s.complete).env = s.env := rfl
@[simp] theorem State.complete_bcd : (s.complete).bcd = s.bcd := rfl
@[simp] theorem State.complete_pendOp : (s.complete).pendOp = s.pendOp := rfl
@[simp] theorem State.complete_cursorI : (s.complete).cursorI = s.cursorI := rfl
@[simp] theorem State.complete_cursorO : (s.complete).cursorO = s.cursorO := rfl
@[simp] theorem State.complete_inBuf : (s.complete).inBuf = s.inBuf := rfl
@[simp] theorem State.complete_outBuf : (s.complete).outBuf = s.outBuf := rfl
@[simp] theorem State.complete_scanning : (s.complete).scanning = s.scanning := rfl
@[simp] theorem State.complete_pending : (s.complete).pending = s.pending := rfl
@[simp] theorem State.complete_latency : (s.complete).latency = s.latency := rfl
@[simp] theorem State.complete_started : (s.complete).started = s.started := rfl
@[simp] theorem State.complete_draws : (s.complete).draws = s.draws := rfl
@[simp] theorem State.complete_busData : (s.complete).busData = s.busData := rfl

end completeFields

section raiseErrorFields

variable (s : State) (e : BitVec 4)

@[simp] theorem State.raiseError_ctrlOp : (s.raiseError e).ctrlOp = s.ctrlOp := rfl
@[simp] theorem State.raiseError_ctrlIe : (s.raiseError e).ctrlIe = s.ctrlIe := rfl
@[simp] theorem State.raiseError_status :
    (s.raiseError e).status =
      { s.status with busy := false, done := true, err := e } := rfl
@[simp] theorem State.raiseError_inLen : (s.raiseError e).inLen = s.inLen := rfl
@[simp] theorem State.raiseError_outLen : (s.raiseError e).outLen = s.outLen := rfl
@[simp] theorem State.raiseError_bcdOff : (s.raiseError e).bcdOff = s.bcdOff := rfl
@[simp] theorem State.raiseError_bcdCnt : (s.raiseError e).bcdCnt = s.bcdCnt := rfl
@[simp] theorem State.raiseError_env : (s.raiseError e).env = s.env := rfl
@[simp] theorem State.raiseError_bcd : (s.raiseError e).bcd = s.bcd := rfl
@[simp] theorem State.raiseError_pendOp : (s.raiseError e).pendOp = s.pendOp := rfl
@[simp] theorem State.raiseError_cursorI : (s.raiseError e).cursorI = s.cursorI := rfl
@[simp] theorem State.raiseError_cursorO : (s.raiseError e).cursorO = s.cursorO := rfl
@[simp] theorem State.raiseError_inBuf : (s.raiseError e).inBuf = s.inBuf := rfl
@[simp] theorem State.raiseError_outBuf : (s.raiseError e).outBuf = s.outBuf := rfl
@[simp] theorem State.raiseError_scanning : (s.raiseError e).scanning = s.scanning := rfl
@[simp] theorem State.raiseError_pending : (s.raiseError e).pending = s.pending := rfl
@[simp] theorem State.raiseError_latency : (s.raiseError e).latency = s.latency := rfl
@[simp] theorem State.raiseError_started : (s.raiseError e).started = s.started := rfl
@[simp] theorem State.raiseError_draws : (s.raiseError e).draws = s.draws := rfl
@[simp] theorem State.raiseError_busData : (s.raiseError e).busData = s.busData := rfl

end raiseErrorFields

section raiseBoundsFields

variable (s : State)

@[simp] theorem State.raiseBounds_ctrlOp : (s.raiseBounds).ctrlOp = s.ctrlOp := rfl
@[simp] theorem State.raiseBounds_ctrlIe : (s.raiseBounds).ctrlIe = s.ctrlIe := rfl
@[simp] theorem State.raiseBounds_status :
    (s.raiseBounds).status =
      { s.status with busy := false, done := true, err := errBounds, cause := causeNone } := rfl
@[simp] theorem State.raiseBounds_inLen : (s.raiseBounds).inLen = s.inLen := rfl
@[simp] theorem State.raiseBounds_outLen : (s.raiseBounds).outLen = s.outLen := rfl
@[simp] theorem State.raiseBounds_bcdOff : (s.raiseBounds).bcdOff = s.bcdOff := rfl
@[simp] theorem State.raiseBounds_bcdCnt : (s.raiseBounds).bcdCnt = s.bcdCnt := rfl
@[simp] theorem State.raiseBounds_env : (s.raiseBounds).env = s.env := rfl
@[simp] theorem State.raiseBounds_bcd : (s.raiseBounds).bcd = s.bcd := rfl
@[simp] theorem State.raiseBounds_pendOp : (s.raiseBounds).pendOp = s.pendOp := rfl
@[simp] theorem State.raiseBounds_cursorI : (s.raiseBounds).cursorI = s.cursorI := rfl
@[simp] theorem State.raiseBounds_cursorO : (s.raiseBounds).cursorO = s.cursorO := rfl
@[simp] theorem State.raiseBounds_inBuf : (s.raiseBounds).inBuf = s.inBuf := rfl
@[simp] theorem State.raiseBounds_outBuf : (s.raiseBounds).outBuf = s.outBuf := rfl
@[simp] theorem State.raiseBounds_scanning : (s.raiseBounds).scanning = s.scanning := rfl
@[simp] theorem State.raiseBounds_pending : (s.raiseBounds).pending = s.pending := rfl
@[simp] theorem State.raiseBounds_latency : (s.raiseBounds).latency = s.latency := rfl
@[simp] theorem State.raiseBounds_started : (s.raiseBounds).started = s.started := rfl
@[simp] theorem State.raiseBounds_draws : (s.raiseBounds).draws = s.draws := rfl
@[simp] theorem State.raiseBounds_busData : (s.raiseBounds).busData = s.busData := rfl

end raiseBoundsFields

section acknowledgeFields

variable (s : State) (v : Word)

@[simp] theorem State.acknowledge_ctrlOp : (s.acknowledge v).ctrlOp = s.ctrlOp := rfl
@[simp] theorem State.acknowledge_ctrlIe : (s.acknowledge v).ctrlIe = s.ctrlIe := rfl
@[simp] theorem State.acknowledge_status :
    (s.acknowledge v).status =
      { s.status with done := s.status.done && !v.getLsbD 1, haz := s.status.haz && !v.getLsbD 2 } := rfl
@[simp] theorem State.acknowledge_inLen : (s.acknowledge v).inLen = s.inLen := rfl
@[simp] theorem State.acknowledge_outLen : (s.acknowledge v).outLen = s.outLen := rfl
@[simp] theorem State.acknowledge_bcdOff : (s.acknowledge v).bcdOff = s.bcdOff := rfl
@[simp] theorem State.acknowledge_bcdCnt : (s.acknowledge v).bcdCnt = s.bcdCnt := rfl
@[simp] theorem State.acknowledge_env : (s.acknowledge v).env = s.env := rfl
@[simp] theorem State.acknowledge_bcd : (s.acknowledge v).bcd = s.bcd := rfl
@[simp] theorem State.acknowledge_pendOp : (s.acknowledge v).pendOp = s.pendOp := rfl
@[simp] theorem State.acknowledge_cursorI : (s.acknowledge v).cursorI = s.cursorI := rfl
@[simp] theorem State.acknowledge_cursorO : (s.acknowledge v).cursorO = s.cursorO := rfl
@[simp] theorem State.acknowledge_inBuf : (s.acknowledge v).inBuf = s.inBuf := rfl
@[simp] theorem State.acknowledge_outBuf : (s.acknowledge v).outBuf = s.outBuf := rfl
@[simp] theorem State.acknowledge_scanning : (s.acknowledge v).scanning = s.scanning := rfl
@[simp] theorem State.acknowledge_pending : (s.acknowledge v).pending = s.pending := rfl
@[simp] theorem State.acknowledge_latency : (s.acknowledge v).latency = s.latency := rfl
@[simp] theorem State.acknowledge_started : (s.acknowledge v).started = s.started := rfl
@[simp] theorem State.acknowledge_draws : (s.acknowledge v).draws = s.draws := rfl
@[simp] theorem State.acknowledge_busData : (s.acknowledge v).busData = s.busData := rfl

end acknowledgeFields

section storeCtrlFields

variable (s : State) (v : Word)

@[simp] theorem State.storeCtrl_ctrlOp : (s.storeCtrl v).ctrlOp = wordOp v := rfl
@[simp] theorem State.storeCtrl_ctrlIe : (s.storeCtrl v).ctrlIe = wordIe v := rfl
@[simp] theorem State.storeCtrl_status : (s.storeCtrl v).status = s.status := rfl
@[simp] theorem State.storeCtrl_inLen : (s.storeCtrl v).inLen = s.inLen := rfl
@[simp] theorem State.storeCtrl_outLen : (s.storeCtrl v).outLen = s.outLen := rfl
@[simp] theorem State.storeCtrl_bcdOff : (s.storeCtrl v).bcdOff = s.bcdOff := rfl
@[simp] theorem State.storeCtrl_bcdCnt : (s.storeCtrl v).bcdCnt = s.bcdCnt := rfl
@[simp] theorem State.storeCtrl_env : (s.storeCtrl v).env = s.env := rfl
@[simp] theorem State.storeCtrl_bcd : (s.storeCtrl v).bcd = s.bcd := rfl
@[simp] theorem State.storeCtrl_pendOp : (s.storeCtrl v).pendOp = s.pendOp := rfl
@[simp] theorem State.storeCtrl_cursorI : (s.storeCtrl v).cursorI = s.cursorI := rfl
@[simp] theorem State.storeCtrl_cursorO : (s.storeCtrl v).cursorO = s.cursorO := rfl
@[simp] theorem State.storeCtrl_inBuf : (s.storeCtrl v).inBuf = s.inBuf := rfl
@[simp] theorem State.storeCtrl_outBuf : (s.storeCtrl v).outBuf = s.outBuf := rfl
@[simp] theorem State.storeCtrl_scanning : (s.storeCtrl v).scanning = s.scanning := rfl
@[simp] theorem State.storeCtrl_pending : (s.storeCtrl v).pending = s.pending := rfl
@[simp] theorem State.storeCtrl_latency : (s.storeCtrl v).latency = s.latency := rfl
@[simp] theorem State.storeCtrl_started : (s.storeCtrl v).started = s.started := rfl
@[simp] theorem State.storeCtrl_draws : (s.storeCtrl v).draws = s.draws := rfl
@[simp] theorem State.storeCtrl_busData : (s.storeCtrl v).busData = s.busData := rfl

end storeCtrlFields

section startFields

variable (s : State) (v : Word)

@[simp] theorem State.start_ctrlOp : (s.start v).ctrlOp = wordOp v := rfl
@[simp] theorem State.start_ctrlIe : (s.start v).ctrlIe = wordIe v := rfl
@[simp] theorem State.start_status :
    (s.start v).status =
      { s.status with busy := true, done := false, err := errNone, cause := causeNone } := rfl
@[simp] theorem State.start_inLen : (s.start v).inLen = s.inLen := rfl
@[simp] theorem State.start_outLen : (s.start v).outLen = s.outLen := rfl
@[simp] theorem State.start_bcdOff : (s.start v).bcdOff = s.bcdOff := rfl
@[simp] theorem State.start_bcdCnt : (s.start v).bcdCnt = s.bcdCnt := rfl
@[simp] theorem State.start_env : (s.start v).env = s.env := rfl
@[simp] theorem State.start_bcd : (s.start v).bcd = s.bcd := rfl
@[simp] theorem State.start_pendOp : (s.start v).pendOp = wordOp v := rfl
@[simp] theorem State.start_cursorI : (s.start v).cursorI = s.cursorI := rfl
@[simp] theorem State.start_cursorO : (s.start v).cursorO = s.cursorO := rfl
@[simp] theorem State.start_inBuf : (s.start v).inBuf = s.inBuf := rfl
@[simp] theorem State.start_outBuf : (s.start v).outBuf = s.outBuf := rfl
@[simp] theorem State.start_scanning : (s.start v).scanning = s.scanning := rfl
@[simp] theorem State.start_pending : (s.start v).pending = s.pending := rfl
@[simp] theorem State.start_latency :
    (s.start v).latency =
      Config.latency s.started (wordOp v) s.inLen (s.bcdCnt ++ s.bcdOff) s.inBuf s.outBuf := rfl
@[simp] theorem State.start_started : (s.start v).started = s.started + 1 := rfl
@[simp] theorem State.start_draws : (s.start v).draws = s.draws := rfl
@[simp] theorem State.start_busData : (s.start v).busData = s.busData := rfl

end startFields

section returnDataFields

variable (s : State) (v : Word)

@[simp] theorem State.returnData_ctrlOp : (s.returnData v).ctrlOp = s.ctrlOp := rfl
@[simp] theorem State.returnData_ctrlIe : (s.returnData v).ctrlIe = s.ctrlIe := rfl
@[simp] theorem State.returnData_status : (s.returnData v).status = s.status := rfl
@[simp] theorem State.returnData_inLen : (s.returnData v).inLen = s.inLen := rfl
@[simp] theorem State.returnData_outLen : (s.returnData v).outLen = s.outLen := rfl
@[simp] theorem State.returnData_bcdOff : (s.returnData v).bcdOff = s.bcdOff := rfl
@[simp] theorem State.returnData_bcdCnt : (s.returnData v).bcdCnt = s.bcdCnt := rfl
@[simp] theorem State.returnData_env : (s.returnData v).env = s.env := rfl
@[simp] theorem State.returnData_bcd : (s.returnData v).bcd = s.bcd := rfl
@[simp] theorem State.returnData_pendOp : (s.returnData v).pendOp = s.pendOp := rfl
@[simp] theorem State.returnData_cursorI : (s.returnData v).cursorI = s.cursorI := rfl
@[simp] theorem State.returnData_cursorO : (s.returnData v).cursorO = s.cursorO := rfl
@[simp] theorem State.returnData_inBuf : (s.returnData v).inBuf = s.inBuf := rfl
@[simp] theorem State.returnData_outBuf : (s.returnData v).outBuf = s.outBuf := rfl
@[simp] theorem State.returnData_scanning : (s.returnData v).scanning = s.scanning := rfl
@[simp] theorem State.returnData_pending : (s.returnData v).pending = s.pending := rfl
@[simp] theorem State.returnData_latency : (s.returnData v).latency = s.latency := rfl
@[simp] theorem State.returnData_started : (s.returnData v).started = s.started := rfl
@[simp] theorem State.returnData_draws : (s.returnData v).draws = s.draws := rfl
@[simp] theorem State.returnData_busData : (s.returnData v).busData = v := rfl

end returnDataFields

section returnDrawFields

variable (s : State) (off : BitVec 18)

@[simp] theorem State.returnDraw_ctrlOp : (s.returnDraw off).ctrlOp = s.ctrlOp := rfl
@[simp] theorem State.returnDraw_ctrlIe : (s.returnDraw off).ctrlIe = s.ctrlIe := rfl
@[simp] theorem State.returnDraw_status : (s.returnDraw off).status = s.status := rfl
@[simp] theorem State.returnDraw_inLen : (s.returnDraw off).inLen = s.inLen := rfl
@[simp] theorem State.returnDraw_outLen : (s.returnDraw off).outLen = s.outLen := rfl
@[simp] theorem State.returnDraw_bcdOff : (s.returnDraw off).bcdOff = s.bcdOff := rfl
@[simp] theorem State.returnDraw_bcdCnt : (s.returnDraw off).bcdCnt = s.bcdCnt := rfl
@[simp] theorem State.returnDraw_env : (s.returnDraw off).env = s.env := rfl
@[simp] theorem State.returnDraw_bcd : (s.returnDraw off).bcd = s.bcd := rfl
@[simp] theorem State.returnDraw_pendOp : (s.returnDraw off).pendOp = s.pendOp := rfl
@[simp] theorem State.returnDraw_cursorI : (s.returnDraw off).cursorI = s.cursorI := rfl
@[simp] theorem State.returnDraw_cursorO : (s.returnDraw off).cursorO = s.cursorO := rfl
@[simp] theorem State.returnDraw_inBuf : (s.returnDraw off).inBuf = s.inBuf := rfl
@[simp] theorem State.returnDraw_outBuf : (s.returnDraw off).outBuf = s.outBuf := rfl
@[simp] theorem State.returnDraw_scanning : (s.returnDraw off).scanning = s.scanning := rfl
@[simp] theorem State.returnDraw_pending : (s.returnDraw off).pending = s.pending := rfl
@[simp] theorem State.returnDraw_latency : (s.returnDraw off).latency = s.latency := rfl
@[simp] theorem State.returnDraw_started : (s.returnDraw off).started = s.started := rfl
@[simp] theorem State.returnDraw_draws : (s.returnDraw off).draws = s.draws + 1 := rfl
@[simp] theorem State.returnDraw_busData : (s.returnDraw off).busData = Config.draw s.draws off := rfl

end returnDrawFields

section returnDrawByteFields

variable (s : State) (off : BitVec 18)

@[simp] theorem State.returnDrawByte_ctrlOp : (s.returnDrawByte off).ctrlOp = s.ctrlOp := rfl
@[simp] theorem State.returnDrawByte_ctrlIe : (s.returnDrawByte off).ctrlIe = s.ctrlIe := rfl
@[simp] theorem State.returnDrawByte_status : (s.returnDrawByte off).status = s.status := rfl
@[simp] theorem State.returnDrawByte_inLen : (s.returnDrawByte off).inLen = s.inLen := rfl
@[simp] theorem State.returnDrawByte_outLen : (s.returnDrawByte off).outLen = s.outLen := rfl
@[simp] theorem State.returnDrawByte_bcdOff : (s.returnDrawByte off).bcdOff = s.bcdOff := rfl
@[simp] theorem State.returnDrawByte_bcdCnt : (s.returnDrawByte off).bcdCnt = s.bcdCnt := rfl
@[simp] theorem State.returnDrawByte_env : (s.returnDrawByte off).env = s.env := rfl
@[simp] theorem State.returnDrawByte_bcd : (s.returnDrawByte off).bcd = s.bcd := rfl
@[simp] theorem State.returnDrawByte_pendOp : (s.returnDrawByte off).pendOp = s.pendOp := rfl
@[simp] theorem State.returnDrawByte_cursorI : (s.returnDrawByte off).cursorI = s.cursorI := rfl
@[simp] theorem State.returnDrawByte_cursorO : (s.returnDrawByte off).cursorO = s.cursorO := rfl
@[simp] theorem State.returnDrawByte_inBuf : (s.returnDrawByte off).inBuf = s.inBuf := rfl
@[simp] theorem State.returnDrawByte_outBuf : (s.returnDrawByte off).outBuf = s.outBuf := rfl
@[simp] theorem State.returnDrawByte_scanning : (s.returnDrawByte off).scanning = s.scanning := rfl
@[simp] theorem State.returnDrawByte_pending : (s.returnDrawByte off).pending = s.pending := rfl
@[simp] theorem State.returnDrawByte_latency : (s.returnDrawByte off).latency = s.latency := rfl
@[simp] theorem State.returnDrawByte_started : (s.returnDrawByte off).started = s.started := rfl
@[simp] theorem State.returnDrawByte_draws : (s.returnDrawByte off).draws = s.draws + 1 := rfl
@[simp] theorem State.returnDrawByte_busData :
    (s.returnDrawByte off).busData =
      ((Config.draw s.draws off).setWidth 8).setWidth 32 := rfl

end returnDrawByteFields

section takeInputFields

variable (s : State) (rest : List HostInput)

@[simp] theorem State.takeInput_ctrlOp : (s.takeInput rest).ctrlOp = s.ctrlOp := rfl
@[simp] theorem State.takeInput_ctrlIe : (s.takeInput rest).ctrlIe = s.ctrlIe := rfl
@[simp] theorem State.takeInput_status : (s.takeInput rest).status = s.status := rfl
@[simp] theorem State.takeInput_inLen : (s.takeInput rest).inLen = s.inLen := rfl
@[simp] theorem State.takeInput_outLen : (s.takeInput rest).outLen = s.outLen := rfl
@[simp] theorem State.takeInput_bcdOff : (s.takeInput rest).bcdOff = s.bcdOff := rfl
@[simp] theorem State.takeInput_bcdCnt : (s.takeInput rest).bcdCnt = s.bcdCnt := rfl
@[simp] theorem State.takeInput_env : (s.takeInput rest).env = s.env := rfl
@[simp] theorem State.takeInput_bcd : (s.takeInput rest).bcd = s.bcd := rfl
@[simp] theorem State.takeInput_pendOp : (s.takeInput rest).pendOp = s.pendOp := rfl
@[simp] theorem State.takeInput_cursorI : (s.takeInput rest).cursorI = s.cursorI := rfl
@[simp] theorem State.takeInput_cursorO : (s.takeInput rest).cursorO = s.cursorO := rfl
@[simp] theorem State.takeInput_inBuf : (s.takeInput rest).inBuf = s.inBuf := rfl
@[simp] theorem State.takeInput_outBuf : (s.takeInput rest).outBuf = s.outBuf := rfl
@[simp] theorem State.takeInput_scanning : (s.takeInput rest).scanning = s.scanning := rfl
@[simp] theorem State.takeInput_pending : (s.takeInput rest).pending = rest := rfl
@[simp] theorem State.takeInput_latency : (s.takeInput rest).latency = s.latency - 1 := rfl
@[simp] theorem State.takeInput_started : (s.takeInput rest).started = s.started := rfl
@[simp] theorem State.takeInput_draws : (s.takeInput rest).draws = s.draws := rfl
@[simp] theorem State.takeInput_busData : (s.takeInput rest).busData = s.busData := rfl

end takeInputFields

section takeTokenFields

variable (s : State) (k : Token)

@[simp] theorem State.takeToken_ctrlOp : (s.takeToken k).ctrlOp = s.ctrlOp := rfl
@[simp] theorem State.takeToken_ctrlIe : (s.takeToken k).ctrlIe = s.ctrlIe := rfl
@[simp] theorem State.takeToken_status : (s.takeToken k).status = s.status := rfl
@[simp] theorem State.takeToken_inLen : (s.takeToken k).inLen = s.inLen := rfl
@[simp] theorem State.takeToken_outLen : (s.takeToken k).outLen = s.outLen := rfl
@[simp] theorem State.takeToken_bcdOff : (s.takeToken k).bcdOff = s.bcdOff := rfl
@[simp] theorem State.takeToken_bcdCnt : (s.takeToken k).bcdCnt = s.bcdCnt := rfl
@[simp] theorem State.takeToken_env : (s.takeToken k).env = s.env := rfl
@[simp] theorem State.takeToken_bcd : (s.takeToken k).bcd = s.bcd := rfl
@[simp] theorem State.takeToken_pendOp : (s.takeToken k).pendOp = s.pendOp := rfl
@[simp] theorem State.takeToken_cursorI : (s.takeToken k).cursorI = s.cursorI + Token.consumes k := rfl
@[simp] theorem State.takeToken_cursorO : (s.takeToken k).cursorO = s.cursorO + 1#16 := rfl
@[simp] theorem State.takeToken_inBuf : (s.takeToken k).inBuf = s.inBuf := rfl
@[simp] theorem State.takeToken_outBuf :
    (s.takeToken k).outBuf =
      s.outBuf.write s.cursorO.toNat (Token.emits k) := rfl
@[simp] theorem State.takeToken_scanning : (s.takeToken k).scanning = s.scanning := rfl
@[simp] theorem State.takeToken_pending : (s.takeToken k).pending = s.pending := rfl
@[simp] theorem State.takeToken_latency : (s.takeToken k).latency = s.latency := rfl
@[simp] theorem State.takeToken_started : (s.takeToken k).started = s.started := rfl
@[simp] theorem State.takeToken_draws : (s.takeToken k).draws = s.draws := rfl
@[simp] theorem State.takeToken_busData : (s.takeToken k).busData = s.busData := rfl

end takeTokenFields

section beginScanFields

variable (s : State)

@[simp] theorem State.beginScan_ctrlOp : (s.beginScan).ctrlOp = s.ctrlOp := rfl
@[simp] theorem State.beginScan_ctrlIe : (s.beginScan).ctrlIe = s.ctrlIe := rfl
@[simp] theorem State.beginScan_status : (s.beginScan).status = s.status := rfl
@[simp] theorem State.beginScan_inLen : (s.beginScan).inLen = s.inLen := rfl
@[simp] theorem State.beginScan_outLen : (s.beginScan).outLen = s.outLen := rfl
@[simp] theorem State.beginScan_bcdOff : (s.beginScan).bcdOff = s.bcdOff := rfl
@[simp] theorem State.beginScan_bcdCnt : (s.beginScan).bcdCnt = s.bcdCnt := rfl
@[simp] theorem State.beginScan_env : (s.beginScan).env = s.env := rfl
@[simp] theorem State.beginScan_bcd : (s.beginScan).bcd = s.bcd := rfl
@[simp] theorem State.beginScan_pendOp : (s.beginScan).pendOp = s.pendOp := rfl
@[simp] theorem State.beginScan_cursorI : (s.beginScan).cursorI = 0#16 := rfl
@[simp] theorem State.beginScan_cursorO : (s.beginScan).cursorO = 0#16 := rfl
@[simp] theorem State.beginScan_inBuf : (s.beginScan).inBuf = s.inBuf := rfl
@[simp] theorem State.beginScan_outBuf : (s.beginScan).outBuf = s.outBuf := rfl
@[simp] theorem State.beginScan_scanning : (s.beginScan).scanning = s.scanning := rfl
@[simp] theorem State.beginScan_pending : (s.beginScan).pending = s.pending := rfl
@[simp] theorem State.beginScan_latency : (s.beginScan).latency = s.latency := rfl
@[simp] theorem State.beginScan_started : (s.beginScan).started = s.started := rfl
@[simp] theorem State.beginScan_draws : (s.beginScan).draws = s.draws := rfl
@[simp] theorem State.beginScan_busData : (s.beginScan).busData = s.busData := rfl

end beginScanFields

section endScanFields

variable (s : State)

@[simp] theorem State.endScan_ctrlOp : (s.endScan).ctrlOp = s.ctrlOp := rfl
@[simp] theorem State.endScan_ctrlIe : (s.endScan).ctrlIe = s.ctrlIe := rfl
@[simp] theorem State.endScan_status :
    (s.endScan).status =
      { s.status with err := errNone, cause := causeNone } := rfl
@[simp] theorem State.endScan_inLen : (s.endScan).inLen = s.inLen := rfl
@[simp] theorem State.endScan_outLen : (s.endScan).outLen = s.cursorO := rfl
@[simp] theorem State.endScan_bcdOff : (s.endScan).bcdOff = s.bcdOff := rfl
@[simp] theorem State.endScan_bcdCnt : (s.endScan).bcdCnt = s.bcdCnt := rfl
@[simp] theorem State.endScan_env : (s.endScan).env = s.env := rfl
@[simp] theorem State.endScan_bcd : (s.endScan).bcd = s.bcd := rfl
@[simp] theorem State.endScan_pendOp : (s.endScan).pendOp = s.pendOp := rfl
@[simp] theorem State.endScan_cursorI : (s.endScan).cursorI = s.cursorI := rfl
@[simp] theorem State.endScan_cursorO : (s.endScan).cursorO = s.cursorO := rfl
@[simp] theorem State.endScan_inBuf : (s.endScan).inBuf = s.inBuf := rfl
@[simp] theorem State.endScan_outBuf : (s.endScan).outBuf = s.outBuf := rfl
@[simp] theorem State.endScan_scanning : (s.endScan).scanning = s.scanning := rfl
@[simp] theorem State.endScan_pending : (s.endScan).pending = s.pending := rfl
@[simp] theorem State.endScan_latency : (s.endScan).latency = s.latency := rfl
@[simp] theorem State.endScan_started : (s.endScan).started = s.started := rfl
@[simp] theorem State.endScan_draws : (s.endScan).draws = s.draws := rfl
@[simp] theorem State.endScan_busData : (s.endScan).busData = s.busData := rfl

end endScanFields

section finishScanFields

variable (s : State)

@[simp] theorem State.finishScan_ctrlOp : (s.finishScan).ctrlOp = s.ctrlOp := rfl
@[simp] theorem State.finishScan_ctrlIe : (s.finishScan).ctrlIe = s.ctrlIe := rfl
@[simp] theorem State.finishScan_status :
    (s.finishScan).status =
      { s.status with busy := false, done := true, err := errNone, cause := causeNone } := rfl
@[simp] theorem State.finishScan_inLen : (s.finishScan).inLen = s.inLen := rfl
@[simp] theorem State.finishScan_outLen : (s.finishScan).outLen = s.cursorO := rfl
@[simp] theorem State.finishScan_bcdOff : (s.finishScan).bcdOff = s.bcdOff := rfl
@[simp] theorem State.finishScan_bcdCnt : (s.finishScan).bcdCnt = s.bcdCnt := rfl
@[simp] theorem State.finishScan_env : (s.finishScan).env = s.env := rfl
@[simp] theorem State.finishScan_bcd : (s.finishScan).bcd = s.bcd := rfl
@[simp] theorem State.finishScan_pendOp : (s.finishScan).pendOp = s.pendOp := rfl
@[simp] theorem State.finishScan_cursorI : (s.finishScan).cursorI = s.cursorI := rfl
@[simp] theorem State.finishScan_cursorO : (s.finishScan).cursorO = s.cursorO := rfl
@[simp] theorem State.finishScan_inBuf : (s.finishScan).inBuf = s.inBuf := rfl
@[simp] theorem State.finishScan_outBuf : (s.finishScan).outBuf = s.outBuf := rfl
@[simp] theorem State.finishScan_scanning : (s.finishScan).scanning = false := rfl
@[simp] theorem State.finishScan_pending : (s.finishScan).pending = s.pending := rfl
@[simp] theorem State.finishScan_latency : (s.finishScan).latency = s.latency := rfl
@[simp] theorem State.finishScan_started : (s.finishScan).started = s.started := rfl
@[simp] theorem State.finishScan_draws : (s.finishScan).draws = s.draws := rfl
@[simp] theorem State.finishScan_busData : (s.finishScan).busData = s.busData := rfl

end finishScanFields

end Sys2Proof.Machine
end

