-- ==== Sys2Proof/Laws/Ops.lean ====
section
/-! SUPPORT. What each shared operation can do, said once. -/

namespace Sys2Proof.Machine

/-! ### The register map -/

@[simp] theorem registerForm_regOffset (r : Reg) : registerForm (regOffset r) = true := by cases r <;> decide

@[simp] theorem regAt_regOffset (r : Reg) : regAt (regOffset r) = some r := by cases r <;> decide

theorem regAt_eq_some {off : BitVec 18} {r : Reg} (h : regAt off = some r) : off = regOffset r := by
  have := List.find?_some h
  exact (beq_iff_eq.mp this).symm

/-! ### Reading a frame -/

theorem memRead_two (f : Nat → Byte) (k : Nat) : memRead f k 2 = (f k).toNat * 256 + (f (k + 1)).toNat := by
  simp [memRead, List.range_succ]

theorem memRead_four (f : Nat → Byte) (k : Nat) :
    memRead f k 4 = (((f k).toNat * 256 + (f (k + 1)).toNat) * 256 + (f (k + 2)).toNat) * 256
      + (f (k + 3)).toNat := by
  simp [memRead, List.range_succ]

theorem memRead_succ (f : Nat → Byte) (k m : Nat) :
    memRead f k (m + 1) = memRead f k m * 256 + (f (k + m)).toNat := by
  simp [memRead, List.range_succ]

/-- A big-endian halfword is the two bytes side by side (R57). -/
theorem ofNat_memRead_two (f : Nat → Byte) (k : Nat) : BitVec.ofNat 16 (memRead f k 2) = f k ++ f (k + 1) := by
  apply BitVec.eq_of_toNat_eq
  have h1 := (f (k + 1)).isLt
  have h0 := (f k).isLt
  rw [memRead_two, BitVec.toNat_append, BitVec.toNat_ofNat, ← Nat.shiftLeft_add_eq_or_of_lt h1, Nat.shiftLeft_eq]
  omega

theorem checksum_eq (n : Nat) (f : Nat → Byte) :
    checksum n f = (List.range (n - 3)).foldl (fun acc j => acc ^^^ f (j + 1)) 0#8 := rfl

/-! ### Host-bus accesses -/

/-- Everything a host-bus access can do. -/
theorem State.hostAccess_cases (s : State) (a : Access) :
    s.hostAccess a = s ∨
    (s.status.busy = true ∧ s.hostAccess a = s.setHaz) ∨
    (∃ v, s.hostAccess a = s.acknowledge v) ∨
    (s.status.busy = false ∧ ∃ v, wordStart v = true ∧ s.hostAccess a = s.start v) ∨
    (s.status.busy = false ∧ ∃ v, wordStart v = false ∧ s.hostAccess a = s.storeCtrl v) ∨
    (s.status.busy = false ∧ ∃ n, s.hostAccess a = { s with inLen := n }) ∨
    (s.status.busy = false ∧ ∃ f c, s.hostAccess a = { s with bcdOff := f, bcdCnt := c }) ∨
    (s.status.busy = false ∧ ∃ k b, k < Config.maxInLen ∧
      s.hostAccess a = { s with inBuf := s.inBuf.write k b }) ∨
    (∃ v, s.hostAccess a = s.returnData v) ∨
    (∃ off, s.hostAccess a = s.returnDraw off) ∨
    (∃ off, s.hostAccess a = s.returnDrawByte off) := by
  rcases a with ⟨off, _ | _ | _⟩ | ⟨off, b⟩ | ⟨off, d⟩ | ⟨off, v⟩
  · simp only [State.hostAccess]
    split
    · simp only [State.busReadIn]
      split
      · simp_all
      · split <;> simp
    · simp only [State.busReadOut]
      split
      · simp
      · split
        · simp
        · split <;> simp
    · simp
  · simp [State.hostAccess]
  · simp only [State.hostAccess]
    split
    · simp only [State.busReadWord]
      split
      · simp
      · split <;> simp
    · simp
  · simp only [State.hostAccess]
    split
    · simp only [State.busWriteIn]
      split
      · simp
      · split
        · simp_all
        · next h1 h2 =>
          have h2' : s.status.busy = false := by simpa using h2
          exact .inr (.inr (.inr (.inr (.inr (.inr (.inr (.inl ⟨h2', _, _, by omega, rfl⟩)))))))
    · simp
    · simp
  · simp [State.hostAccess]
  · simp only [State.hostAccess]
    split
    · simp only [State.busWriteWord]
      split
      · simp
      · next r hr =>
        split
        · simp_all
        · next hb =>
          cases r <;> simp_all only [droppedWhileBusy, State.writeReg, Bool.and_true, Bool.not_eq_true]
          case ctrl =>
            by_cases hv : wordStart v = true
            · exact .inr (.inr (.inr (.inl ⟨trivial, v, hv, by simp [hv]⟩)))
            · exact .inr (.inr (.inr (.inr (.inl ⟨trivial, v, by simpa using hv, by simp [hv]⟩))))
          case status => exact .inr (.inr (.inl ⟨v, rfl⟩))
          case inLen => exact .inr (.inr (.inr (.inr (.inr (.inl ⟨trivial, _, rfl⟩)))))
          case bcdArg => exact .inr (.inr (.inr (.inr (.inr (.inr (.inl ⟨trivial, _, _, rfl⟩))))))
          all_goals exact .inl trivial
    · simp

/-- No host access writes what only the engine writes (R8), nor what the environment presents. -/
theorem State.hostAccess_keeps (s : State) (a : Access) :
    (s.hostAccess a).outBuf = s.outBuf ∧ (s.hostAccess a).outLen = s.outLen ∧ (s.hostAccess a).env = s.env ∧
    (s.hostAccess a).bcd = s.bcd ∧ (s.hostAccess a).cursorI = s.cursorI ∧ (s.hostAccess a).cursorO = s.cursorO ∧
    (s.hostAccess a).scanning = s.scanning ∧ (s.hostAccess a).pending = s.pending := by
  rcases s.hostAccess_cases a with h | ⟨-, h⟩ | ⟨v, h⟩ | ⟨-, v, -, h⟩ | ⟨-, v, -, h⟩ | ⟨-, n, h⟩ | ⟨-, f, c, h⟩ |
    ⟨-, k, b, -, h⟩ | ⟨v, h⟩ | ⟨o, h⟩ | ⟨o, h⟩ <;> rw [h] <;> simp

/-! ### Pseudo-instructions -/

@[simp] theorem State.runExpansion_nil (s : State) : s.runExpansion [] = s := rfl

theorem State.runExpansion_cons (s : State) (a : Access) (rest : List Access) :
    s.runExpansion (a :: rest) = { s.hostAccess a with pending := rest.map HostInput.access ++ s.pending } := rfl

/-- A pseudo-instruction of one transaction is that transaction. -/
@[simp] theorem State.runExpansion_single (s : State) (a : Access) : s.runExpansion [a] = s.hostAccess a := by
  rw [State.runExpansion_cons]
  have h := (s.hostAccess_keeps a).2.2.2.2.2.2.2
  simp only [List.map_nil, List.nil_append]
  rw [← h]

/-- The byte writes of LOADIN up to the end of the `IN` window, one for each byte at its index. -/
theorem loadBytes_eq {k : Nat} {bs : List Byte} (h : k + bs.length ≤ 65536) :
    loadBytes k bs = (bs.zipIdx k).map (fun p => Access.write1 (windowOffset .inp (BitVec.ofNat 16 p.2)) p.1) := by
  induction bs generalizing k with
  | nil => rfl
  | cons b bs ih =>
    simp only [List.length_cons] at h
    have hk : 0x10000 + k < 0x40000 := by omega
    rw [loadBytes, if_pos hk, ofNat_inp (by omega), ih (by omega)]
    rfl

theorem length_loadBytes {k : Nat} {bs : List Byte} (h : k + bs.length ≤ 65536) :
    (loadBytes k bs).length = bs.length := by
  simp [loadBytes_eq h]

/-! ### Tokens and the scan -/

/-- Everything the token window at the cursor can be. -/
theorem State.fetchToken_cases (s : State) :
    (s.inLen.toNat ≤ s.cursorI.toNat ∧ s.fetchToken = .atEnd) ∨
    (s.cursorI.toNat < s.inLen.toNat ∧ s.fetchToken = .unwritten ∧
      (s.inByte s.cursorI.toNat = none ∨
        (s.cursorI.toNat + 1 < s.inLen.toNat ∧ s.inByte (s.cursorI.toNat + 1) = none))) ∨
    (s.cursorI.toNat < s.inLen.toNat ∧ ∃ b0, s.inByte s.cursorI.toNat = some b0 ∧
      ((b0 = Config.esc ∧ s.cursorI.toNat + 1 < s.inLen.toNat ∧
          ∃ b1, s.inByte (s.cursorI.toNat + 1) = some b1 ∧ s.fetchToken = .window b0 (some b1)) ∨
        (¬(b0 = Config.esc ∧ s.cursorI.toNat + 1 < s.inLen.toNat) ∧ s.fetchToken = .window b0 none))) := by
  unfold State.fetchToken
  simp only
  split
  · next h => exact .inl ⟨h, rfl⟩
  · next h =>
    split
    · next h0 => exact .inr (.inl ⟨by omega, rfl, .inl h0⟩)
    · next b0 h0 =>
      split
      · next hc =>
        split
        · next h1 => exact .inr (.inl ⟨by omega, rfl, .inr ⟨hc.2, h1⟩⟩)
        · next b1 h1 => exact .inr (.inr ⟨by omega, b0, h0, .inl ⟨hc.1, hc.2, b1, h1, rfl⟩⟩)
      · next hc => exact .inr (.inr ⟨by omega, b0, h0, .inr ⟨hc, rfl⟩⟩)

/-- A scan changes `OUT` and the cursors only. -/
theorem scanLoop_frame (n : Nat) (s : State) :
    scanLoop n s = { s with outBuf := (scanLoop n s).outBuf, cursorI := (scanLoop n s).cursorI,
                            cursorO := (scanLoop n s).cursorO } := by
  induction n generalizing s with
  | zero => rfl
  | succ n ih =>
    simp only [scanLoop]
    split
    · rw [ih]; simp [State.takeToken]
    · rfl
    · rfl

/-- The meaning of a token is that of `runToken`. -/
theorem exec_token (t : Token) (s : State) : exec t.toInstr s = runToken t s := by cases t <;> rfl

/-- A token at the cursor is taken. -/
theorem runToken_taken {s : State} {b0 : Byte} {b1 : Option Byte} (h : s.fetchToken = .window b0 b1) :
    runToken (decodeToken b0 b1) s = .next (s.takeToken (decodeToken b0 b1)) := by simp [runToken, h]

/-! ### Faults and refusals -/

/-- A step that runs an instruction ends as the instruction does. -/
theorem step_run {s t : State} {i : Instr} (h : s.fetch = .run i t) : step s = exec i t := by simp [step, h]

theorem step_settled {s : State} {o : Host.Outcome State Fault Refusal} (h : s.fetch = .settled o) : step s = o := by
  simp [step, h]

/-! ### The checks of the commands -/

theorem State.chunkTooLong_iff (s : State) : s.chunkTooLong = true ↔ Config.maxInLen < s.inLen.toNat :=
  decide_eq_true_iff

theorem State.chunkWritten_iff (s : State) :
    s.chunkWritten = true ↔ ∀ k, k < s.inLen.toNat → (s.inByte k).isSome = true := by
  simp only [State.chunkWritten, List.all_eq_true, List.mem_range]

theorem State.bcdOutOfBounds_iff (s : State) :
    s.bcdOutOfBounds = true ↔ 8 < s.bcdCnt.toNat ∨ s.outLen.toNat < s.bcdOff.toNat + s.bcdCnt.toNat :=
  decide_eq_true_iff

/-! ### Instructions -/

/-- Everything an instruction of the host can do: one bus access, and then what of its expansion is still to be
presented, accesses or the same WAITDONE, stands before what the host presents. -/
theorem exec_byHost {i : Instr} (hb : byHost i = true) (s : State) :
    ∃ a p, exec i s = .next { s.hostAccess a with pending := p ++ s.pending } ∧
      ∀ h, h ∈ p → (∃ b, h = .access b) ∨ h = .line .waitdone := by
  have one : ∀ a : Access, ∃ b p, (Host.Outcome.next (s.hostAccess a) : Host.Outcome State Fault Refusal) =
      .next { s.hostAccess b with pending := p ++ s.pending } ∧
      ∀ h, h ∈ p → (∃ b, h = .access b) ∨ h = .line .waitdone := by
    intro a
    refine ⟨a, [], ?_, by simp⟩
    rw [List.nil_append, ← (s.hostAccess_keeps a).2.2.2.2.2.2.2]
  cases i
  case ctrlWriteNoStart op ie => exact one _
  case wr off d => exact one _
  case rd off => exact one _
  case wrb k d => exact one _
  case rdb w k => exact one _
  case loadin bs =>
    have hx : ∀ l : List Access, l ≠ [] → ∃ b p, (Host.Outcome.next (s.runExpansion l) : Host.Outcome State Fault Refusal) =
        .next { s.hostAccess b with pending := p ++ s.pending } ∧
        ∀ h, h ∈ p → (∃ b, h = .access b) ∨ h = .line .waitdone := by
      intro l hl
      cases l with
      | nil => exact absurd rfl hl
      | cons a l =>
        refine ⟨a, l.map HostInput.access, rfl, fun h hm => ?_⟩
        obtain ⟨b, -, rfl⟩ := List.mem_map.1 hm
        exact .inl ⟨b, rfl⟩
    exact hx _ (by simp [loadinExpansion])
  case cmd c => simpa only [exec, execCmd, State.runExpansion_single] using one _
  case cmdi c => simpa only [exec, execCmdi, State.runExpansion_single] using one _
  case ack => simpa only [exec, execAck, State.runExpansion_single] using one _
  case bcdarg f c => simpa only [exec, execBcdarg, State.runExpansion_single] using one _
  case waitdone =>
    simp only [exec, execWaitdone]
    split
    · exact one _
    · refine ⟨.read (regOffset .status) .four, [.line .waitdone], ?_, by simp⟩
      rw [List.singleton_append, (s.hostAccess_keeps _).2.2.2.2.2.2.2]
  all_goals simp [byHost, Instr.format] at hb

/-- A token changes `OUT` and the cursors only. -/
theorem exec_token_frame {k : Token} {s t : State} (h : exec k.toInstr s = .next t) :
    t = s ∨ t = s.takeToken k := by
  rw [exec_token] at h
  simp only [runToken] at h
  split at h
  · cases h; exact .inl rfl
  · cases h
  · split at h <;> cases h <;> simp

/-- Every instruction is the host's, a command of the engine's, or a token. -/
theorem instr_kinds (i : Instr) : byHost i = true ∨ (∃ op, i = decodeOp op) ∨ ∃ k : Token, i = k.toInstr := by
  cases i
  case unescape => exact .inr (.inl ⟨1#4, rfl⟩)
  case envelope => exact .inr (.inl ⟨2#4, rfl⟩)
  case decodeFrame => exact .inr (.inl ⟨3#4, rfl⟩)
  case bcd => exact .inr (.inl ⟨4#4, rfl⟩)
  case illegalOp0 => exact .inr (.inl ⟨0#4, rfl⟩)
  case illegalOp5 => exact .inr (.inl ⟨5#4, rfl⟩)
  case illegalOp6to7 low => exact .inr (.inl ⟨3#3 ++ low, by revert low; decide⟩)
  case illegalOp8to15 low => exact .inr (.inl ⟨1#1 ++ low, by revert low; decide⟩)
  case esc7d => exact .inr (.inr ⟨.esc7d, rfl⟩)
  case escDelim => exact .inr (.inr ⟨.escDelim, rfl⟩)
  case lit7d => exact .inr (.inr ⟨.lit7d, rfl⟩)
  case lit b => exact .inr (.inr ⟨.lit b, rfl⟩)
  all_goals exact .inl rfl

/-! ### Runs -/

theorem run_succ_next {s t : State} (h : step s = .next t) (k : Nat) :
    Host.Core.run Sys2Proof.core (k + 1) s = Host.Core.run Sys2Proof.core k t := by
  have h' : Sys2Proof.core.step s = .next t := h
  simp only [Host.Core.run, h']

theorem run_succ_fault {s : State} {f : Fault} (h : step s = .fault f) (k : Nat) :
    Host.Core.run Sys2Proof.core (k + 1) s = .fault f := by
  have h' : Sys2Proof.core.step s = .fault f := h
  simp only [Host.Core.run, h']

end Sys2Proof.Machine
end

