-- ==== Sys2Proof/Laws/Envelope.lean ====
section
/-! SUPPORT. What the envelope and BCD operations compute, said once: bit strings as numbers, the digits of a byte, and
the envelope registers of a short, a header-only and a full frame. -/

namespace Sys2Proof.Machine

/-! ### Bit strings as numbers -/

theorem toNat_append_eq {m n : Nat} (x : BitVec m) (y : BitVec n) : (x ++ y).toNat = x.toNat * 2 ^ n + y.toNat := by
  rw [BitVec.toNat_append, ← Nat.shiftLeft_add_eq_or_of_lt y.isLt, Nat.shiftLeft_eq]

theorem toNat_ofBool_eq (b : Bool) : (BitVec.ofBool b).toNat = b.toNat := by cases b <;> rfl

theorem ofNat_memRead_four (f : Nat → Byte) (k : Nat) :
    BitVec.ofNat 32 (memRead f k 4) = f k ++ f (k + 1) ++ f (k + 2) ++ f (k + 3) := by
  have h0 := (f k).isLt
  have h1 := (f (k + 1)).isLt
  have h2 := (f (k + 2)).isLt
  have h3 := (f (k + 3)).isLt
  apply BitVec.eq_of_toNat_eq
  rw [memRead_four, BitVec.toNat_ofNat]
  simp only [toNat_append_eq]
  omega

/-! ### Digits -/

theorem byteDigits_eq (b : Byte) : byteDigits b = [b.toNat / 16, b.toNat % 16] := by
  have := b.isLt
  simp [byteDigits, BitVec.extractLsb'_toNat, Nat.shiftRight_eq_div_pow]
  omega

/-- A field is valid exactly when every byte of it holds two decimal digits (R89). -/
theorem bcdValid_iff (bs : List Byte) : bcdValid bs = true ↔ ∀ b, b ∈ bs → decimalByte b := by
  simp [bcdValid, digits, byteDigits_eq, decimalByte]

theorem State.mem_outBytes {s : State} {f c : Nat} {b : Byte} :
    b ∈ s.outBytes f c ↔ ∃ j, j < c ∧ s.outByte (f + j) = b := by
  simp [State.outBytes]

/-! ### The envelope registers -/

@[simp] theorem envelopeOf_flags (n : Nat) (o : Nat → Byte) : (envelopeOf n o).flags = envFlagsOf n o := by
  simp only [envelopeOf, withHeader, withTrailer]
  split <;> split <;> rfl

theorem envFlagsOf_loaded (n : Nat) (o : Nat → Byte) : (envFlagsOf n o).loaded = true ↔ 13 ≤ n := decide_eq_true_iff

theorem envFlagsOf_lenOk (n : Nat) (o : Nat → Byte) : (envFlagsOf n o).lenOk = true ↔ 15 ≤ n := decide_eq_true_iff

/-- A frame of fewer than `HDR_LEN` bytes leaves every envelope register 0 (R95). -/
theorem envelopeOf_short {n : Nat} (o : Nat → Byte) (h : n < 13) : envelopeOf n o = Envelope.zero := by
  have h1 : ¬ 13 ≤ n := by omega
  have h2 : ¬ 15 ≤ n := by omega
  simp [envelopeOf, envFlagsOf, Config.hdrLen, Config.minFrameLen, h1, h2, Envelope.zero, EnvFlags.zero]

/-- A frame of 13 or 14 bytes has its header fields and nothing else (R101). -/
theorem envelopeOf_header {n : Nat} (o : Nat → Byte) (h : 13 ≤ n) (h' : n < 15) :
    envelopeOf n o = withHeader o { Envelope.zero with flags := envFlagsOf n o } := by
  have h2 : ¬ 15 ≤ n := by omega
  simp [envelopeOf, Config.hdrLen, Config.minFrameLen, h, h2]

/-- A frame of at least 15 bytes has all its fields (R94). -/
theorem envelopeOf_full {n : Nat} (o : Nat → Byte) (h : 15 ≤ n) :
    envelopeOf n o = withTrailer n o (withHeader o { Envelope.zero with flags := envFlagsOf n o }) := by
  have h1 : 13 ≤ n := by omega
  simp [envelopeOf, Config.hdrLen, Config.minFrameLen, h, h1]

/-! ### Checksum -/

theorem xor_foldl (l : List Nat) (f : Nat → Byte) (x : Byte) :
    l.foldl (fun acc j => acc ^^^ f j) x = x ^^^ l.foldl (fun acc j => acc ^^^ f j) 0#8 := by
  induction l generalizing x with
  | nil => simp
  | cons a l ih =>
    simp only [List.foldl_cons]
    rw [ih, ih (0#8 ^^^ f a)]
    simp [BitVec.xor_assoc]

/-- The checksum reads `OUT[1]` to `OUT[n-3]` only. -/
theorem checksum_congr {n : Nat} {f g : Nat → Byte} (h : ∀ k, 1 ≤ k → k ≤ n - 3 → g k = f k) :
    checksum n g = checksum n f := by
  have hl : ∀ (l : List Nat) (x : Byte), (∀ j, j ∈ l → g (j + 1) = f (j + 1)) →
      l.foldl (fun acc j => acc ^^^ g (j + 1)) x = l.foldl (fun acc j => acc ^^^ f (j + 1)) x := by
    intro l
    induction l with
    | nil => intro x _; rfl
    | cons a l ih =>
      intro x hx
      simp only [List.foldl_cons]
      rw [hx a (by simp)]
      exact ih _ (fun j hj => hx j (by simp [hj]))
  exact hl _ _ (fun j hj => h _ (by omega) (by have := List.mem_range.1 hj; omega))

end Sys2Proof.Machine
end

