-- ==== Sys2Proof/Laws/PerInstr.lean ====
section
/-! SUPPORT. A statement made for every instruction, constructor by constructor: its encoding is in the format of its
row in spec/opcode_table.json. -/

namespace Sys2Proof.Laws.EncodedFormat

/-- The encoding of an instruction is in the format of its row. -/
def Statement (i : Instr) : Prop := (encode i).format = i.format

theorem unescape : Statement (.unescape) := rfl
theorem envelope : Statement (.envelope) := rfl
theorem decodeFrame : Statement (.decodeFrame) := rfl
theorem bcd : Statement (.bcd) := rfl
theorem illegalOp0 : Statement (.illegalOp0) := rfl
theorem illegalOp5 : Statement (.illegalOp5) := rfl
theorem illegalOp6to7 (low : BitVec 1) : Statement (.illegalOp6to7 low) := rfl
theorem illegalOp8to15 (low : BitVec 3) : Statement (.illegalOp8to15 low) := rfl
theorem ctrlWriteNoStart (op : BitVec 4) (ie : Bool) : Statement (.ctrlWriteNoStart op ie) := rfl
theorem esc7d : Statement (.esc7d) := rfl
theorem escDelim : Statement (.escDelim) := rfl
theorem lit7d : Statement (.lit7d) := rfl
theorem lit (b : Byte) : Statement (.lit b) := rfl
theorem wr (off : BitVec 18) (data : Word) : Statement (.wr off data) := rfl
theorem rd (off : BitVec 18) : Statement (.rd off) := rfl
theorem wrb (k : BitVec 16) (data : Byte) : Statement (.wrb k data) := rfl
theorem rdb (win : Window) (k : BitVec 16) : Statement (.rdb win k) := rfl
theorem loadin (bytes : List Byte) : Statement (.loadin bytes) := rfl
theorem cmd (c : Command) : Statement (.cmd c) := rfl
theorem cmdi (c : Command) : Statement (.cmdi c) := rfl
theorem waitdone : Statement (.waitdone) := rfl
theorem ack : Statement (.ack) := rfl
theorem bcdarg (off : Word) (cnt : BitVec 16) : Statement (.bcdarg off cnt) := rfl

end Sys2Proof.Laws.EncodedFormat
end

