-- ==== Sys2Proof/Laws/Scan.lean ====
section
/-! SUPPORT. The scan of the UNESCAPE step, said once: what one token does to the rest of the chunk, and what the whole
step leaves. -/

namespace Sys2Proof.Machine

@[simp] theorem State.length_chunk (s : State) : s.chunk.length = s.inLen.toNat := by simp [State.chunk]

/-- A written byte inside the chunk heads the chunk from there. -/
theorem State.drop_chunk {s : State} {i : Nat} {b : Byte} (hi : i < s.inLen.toNat) (hb : s.inByte i = some b) :
    s.chunk.drop i = b :: s.chunk.drop (i + 1) := by
  rw [List.drop_eq_getElem_cons (by simpa using hi)]
  congr 1
  simp [State.chunk, hb]

theorem unesc_cons_of_ne {b : Byte} (t : List Byte) (h : b ≠ 0x7D#8) : unesc (b :: t) = b :: unesc t := by
  cases t with
  | nil => rfl
  | cons c t => simp [unesc, h]

theorem unesc_cons_esc {c : Byte} (t : List Byte) (h1 : c ≠ 0x01#8) (h2 : c ≠ 0x02#8) :
    unesc (0x7D#8 :: c :: t) = 0x7D#8 :: unesc (c :: t) := by
  simp [unesc, h1, h2]

/-- Inside a written chunk a token stands at the cursor, it lies inside the chunk, and `unesc` of what is left begins
with what it emits. -/
theorem State.token_at_cursor {s : State} (hw : ∀ k, k < s.inLen.toNat → (s.inByte k).isSome = true)
    (hi : s.cursorI.toNat < s.inLen.toNat) :
    ∃ t b0 b1, s.fetchToken = .window b0 b1 ∧ decodeToken b0 b1 = t ∧
      s.cursorI.toNat + (Token.consumes t).toNat ≤ s.inLen.toNat ∧ 1 ≤ (Token.consumes t).toNat ∧
      unesc (s.chunk.drop s.cursorI.toNat) =
        Token.emits t :: unesc (s.chunk.drop (s.cursorI.toNat + (Token.consumes t).toNat)) := by
  rcases s.fetchToken_cases with ⟨h, -⟩ | ⟨-, -, h⟩ | ⟨-, b0, hb, h⟩
  · omega
  · rcases h with h | ⟨h1, h⟩
    · simpa [h] using hw _ hi
    · simpa [h] using hw _ h1
  · have hd := s.drop_chunk hi hb
    rcases h with ⟨he, h1, b1, hb1, hf⟩ | ⟨hn, hf⟩
    · have hd1 := s.drop_chunk h1 hb1
      refine ⟨_, b0, _, hf, rfl, ?_⟩
      rcases decodeToken_cases b0 (some b1) with ⟨-, h2, ht⟩ | ⟨-, h2, ht⟩ | ⟨-, h2, h3, ht⟩ | ⟨h2, -⟩
      · obtain rfl : b1 = Config.tagEsc := by simpa using h2
        rw [ht, hd, hd1, he]
        exact ⟨by simp [Token.consumes]; omega, by simp [Token.consumes], rfl⟩
      · obtain rfl : b1 = Config.tagDelim := by simpa using h2
        rw [ht, hd, hd1, he]
        exact ⟨by simp [Token.consumes]; omega, by simp [Token.consumes], rfl⟩
      · rw [ht, hd, hd1, he]
        refine ⟨by simp [Token.consumes]; omega, by simp [Token.consumes], ?_⟩
        have := unesc_cons_esc (s.chunk.drop (s.cursorI.toNat + 1 + 1)) (by simpa [Config.tagEsc] using h2)
          (by simpa [Config.tagDelim] using h3)
        simpa [Token.emits, Token.consumes, Config.esc, hd1] using this
      · exact absurd he h2
    · refine ⟨_, b0, _, hf, rfl, ?_⟩
      rcases decodeToken_cases b0 none with ⟨-, h2, -⟩ | ⟨-, h2, -⟩ | ⟨he, -, -, ht⟩ | ⟨h2, ht⟩
      · simp at h2
      · simp at h2
      · have hz : s.chunk.drop (s.cursorI.toNat + 1) = [] := by
          apply List.drop_eq_nil_of_le
          rw [s.length_chunk]
          by_contra hc
          exact hn ⟨he, by omega⟩
        rw [ht, hd, he]
        exact ⟨by simp [Token.consumes]; omega, by simp [Token.consumes], by simp [Token.consumes, hz]; rfl⟩
      · rw [ht, hd]
        exact ⟨by simp [Token.consumes]; omega, by simp [Token.consumes], unesc_cons_of_ne _ h2⟩

/-- Taking a token inside the chunk does not wrap the cursor. -/
theorem State.takeToken_cursorI_toNat {s : State} {t : Token}
    (h : s.cursorI.toNat + (Token.consumes t).toNat ≤ s.inLen.toNat) :
    (s.takeToken t).cursorI.toNat = s.cursorI.toNat + (Token.consumes t).toNat := by
  have := s.inLen.isLt
  simp only [State.takeToken_cursorI, BitVec.toNat_add]
  omega

/-- What a scan with enough fuel leaves: the cursors at the end, `unesc` of what was left of the chunk from `OUT[o]`
on, and every other byte of `OUT` as it was. -/
theorem scanLoop_spec (n : Nat) (s : State) (hw : ∀ k, k < s.inLen.toNat → (s.inByte k).isSome = true)
    (hi : s.cursorI.toNat ≤ s.inLen.toNat) (ho : s.cursorO.toNat ≤ s.cursorI.toNat)
    (hn : s.inLen.toNat - s.cursorI.toNat ≤ n) :
    (scanLoop n s).cursorI = s.inLen ∧
    (scanLoop n s).cursorO.toNat = s.cursorO.toNat + (unesc (s.chunk.drop s.cursorI.toNat)).length ∧
    (∀ k, s.cursorO.toNat ≤ k → k < (scanLoop n s).cursorO.toNat →
      (scanLoop n s).outBuf.read k = (unesc (s.chunk.drop s.cursorI.toNat))[k - s.cursorO.toNat]?) ∧
    (∀ k, k < s.cursorO.toNat ∨ (scanLoop n s).cursorO.toNat ≤ k →
      (scanLoop n s).outBuf.read k = s.outBuf.read k) := by
  induction n generalizing s with
  | zero =>
    have hc : s.cursorI = s.inLen := BitVec.eq_of_toNat_eq (by omega)
    have hz : s.chunk.drop s.cursorI.toNat = [] := List.drop_eq_nil_of_le (by rw [s.length_chunk]; omega)
    rw [hz]
    simp only [scanLoop, unesc, hc, List.length_nil, Nat.add_zero, implies_true, and_true, true_and]
    intro k h1 h2; omega
  | succ n ih =>
    by_cases hlt : s.cursorI.toNat < s.inLen.toNat
    · obtain ⟨t, b0, b1, hf, ht, hc, h1, hu⟩ := s.token_at_cursor hw hlt
      have hI := s.takeToken_cursorI_toNat hc
      have hlt16 := s.inLen.isLt
      have hO : (s.takeToken t).cursorO.toNat = s.cursorO.toNat + 1 := by simp; omega
      have hstep : scanLoop (n + 1) s = scanLoop n (s.takeToken t) := by simp [scanLoop, hf, ht]
      have hch : (s.takeToken t).chunk = s.chunk := rfl
      obtain ⟨a, b, c, d⟩ := ih (s.takeToken t) hw (by rw [hI]; exact hc) (by rw [hI, hO]; omega)
        (by rw [hI, State.takeToken_inLen]; omega)
      rw [hstep, hu]
      rw [hI, hO, hch] at *
      refine ⟨a, ?_, ?_, ?_⟩
      · rw [b]; simp; omega
      · intro k hk1 hk2
        by_cases hk : k = s.cursorO.toNat
        · subst hk
          rw [d _ (by omega)]; simp
        · rw [c _ (by omega) hk2, show k - s.cursorO.toNat = (k - (s.cursorO.toNat + 1)) + 1 by omega]
          simp
      · intro k hk
        rw [d _ (by omega), State.takeToken_outBuf]
        exact Memory.read_write_other _ _ (by omega)
    · have hc : s.cursorI = s.inLen := BitVec.eq_of_toNat_eq (by omega)
      have hz : s.chunk.drop s.cursorI.toNat = [] := List.drop_eq_nil_of_le (by rw [s.length_chunk]; omega)
      have hf : s.fetchToken = .atEnd := by simp [State.fetchToken]; omega
      rw [hz]
      simp only [scanLoop, hf, unesc, hc, List.length_nil, Nat.add_zero, implies_true, and_true, true_and]
      intro k h1 h2; omega

/-- The two checks of the commands that read the chunk. -/
theorem State.ChunkReady.checks {s : State} (h : s.ChunkReady) : s.chunkTooLong = false ∧ s.chunkWritten = true := by
  refine ⟨by simpa [State.chunkTooLong] using h.1, ?_⟩
  simp only [State.chunkWritten, List.all_eq_true, List.mem_range]
  exact h.2

/-- What the UNESCAPE step leaves of a chunk that is ready. -/
theorem State.unescapeStep_spec {s : State} (h : s.ChunkReady) :
    s.unescapeStep.outLen.toNat = (unesc s.chunk).length ∧
    (∀ k, k < s.unescapeStep.outLen.toNat → s.unescapeStep.outBuf.read k = (unesc s.chunk)[k]?) ∧
    (∀ k, s.unescapeStep.outLen.toNat ≤ k → s.unescapeStep.outBuf.read k = s.outBuf.read k) ∧
    s.unescapeStep =
      { s with outBuf := s.unescapeStep.outBuf, outLen := s.unescapeStep.outLen, cursorI := s.inLen,
               cursorO := s.unescapeStep.outLen,
               status := { s.status with err := errNone, cause := causeNone } } := by
  obtain ⟨a, b, c, d⟩ := scanLoop_spec s.inLen.toNat s.beginScan h.2 (by simp) (by simp) (by simp)
  have hf := scanLoop_frame s.inLen.toNat s.beginScan
  have hc : s.beginScan.chunk.drop s.beginScan.cursorI.toNat = s.chunk := by
    simp [State.beginScan, State.chunk, State.inByte]
  rw [hc] at b c
  unfold State.unescapeStep
  simp only [State.beginScan_cursorO, State.beginScan_inLen, BitVec.toNat_ofNat, Nat.zero_mod, Nat.zero_add,
    Nat.sub_zero, Nat.zero_le, forall_const, State.endScan_outLen, State.endScan_outBuf,
    State.beginScan_outBuf] at *
  refine ⟨b, c, fun k hk => d k (.inr hk), ?_⟩
  conv_lhs => rw [hf]
  simp [State.endScan, State.withErr, State.withCause, a]

end Sys2Proof.Machine
end

