-- ==== Sys2Proof/Tests/Slice0.lean ====
section
/-! SUPPORT. The model's own tests: ill-formed terms the checks refuse, words written out from the spec's encodings,
single steps whose results are taken from spec/95_test_vectors.md or worked by hand from the rule named, and for each
statement with hypotheses a state and operands that meet them. -/

namespace Sys2Proof.Tests

open Sys2Proof.Machine

/-! ### Helpers -/

/-- A buffer holding the given bytes from index 0 on. -/
def bufOf (bs : List Byte) : Memory := bs.zipIdx.map (fun p => (p.2, p.1))

/-- The reset state with a chunk loaded. -/
def withChunk (bs : List Byte) : State :=
  { State.reset with inBuf := bufOf bs, inLen := BitVec.ofNat 16 bs.length }

/-- The reset state with a frame in `OUT`. -/
def withFrame (bs : List Byte) : State :=
  { State.reset with outBuf := bufOf bs, outLen := BitVec.ofNat 16 bs.length }

/-- A state in which a command runs, as START leaves it, with `latency` accesses of the host to come first. -/
def running (op : BitVec 4) (latency : Nat) (s : State) : State :=
  { s with status := { s.status with busy := true, done := false, err := 0#4, cause := 0#4 }, pendOp := op,
           ctrlOp := op, latency := latency }

/-- Something of the next state. -/
def after {α : Type} (f : State → α) : Host.Outcome State Fault Refusal → Option α
  | .next s => some (f s)
  | .fault _ => none
  | .refused _ => none

/-- Whether a step ends in the model fault. -/
def stops : Host.Outcome State Fault Refusal → Bool
  | .next _ => false
  | .fault .unwrittenInput => true
  | .refused _ => false

/-- The frame of S1 (95_test_vectors.md). -/
def frameS1 : List Byte :=
  [0x7E, 0x01, 0x00, 0x00, 0x05, 0x01, 0x23, 0x45, 0x67, 0x89, 0x01, 0x00, 0x01, 0x8D, 0x7E]

/-- The frame of E14: unknown type, bad BCD, bad checksum. -/
def frameE14 : List Byte :=
  [0x7E, 0x00, 0xFF, 0x00, 0x00, 0xAB, 0x23, 0x45, 0x67, 0x89, 0x01, 0x00, 0x01, 0x00, 0x7E]

/-! ### WellFormed refuses -/

theorem test_wr_misaligned_refused : ¬ (Instr.wr 0x00002#18 0#32).WellFormed := by decide
theorem test_wr_past_registers_refused : ¬ (Instr.wr 0x10000#18 0#32).WellFormed := by decide
theorem test_rd_misaligned_refused : ¬ (Instr.rd 0x00005#18).WellFormed := by decide
theorem test_rd_past_registers_refused : ¬ (Instr.rd 0x30000#18).WellFormed := by decide
theorem test_lit_escape_refused : ¬ (Instr.lit 0x7D#8).WellFormed := by decide

/-! ### Decoding: words written out bit by bit from R68, R70, R78 and R79 -/

/-- START is bit 8, OP bits 3:0, IE bit 16 (R68). -/
theorem test_decode_unescape :
    decodeTableWord 32 0b00000000000000000000000100000001 = some .unescape := by decide
theorem test_decode_envelope :
    decodeTableWord 32 0b00000000000000010000000100000010 = some .envelope := by decide
theorem test_decode_decodeFrame :
    decodeTableWord 32 0b00000000000000000000000100000011 = some .decodeFrame := by decide
theorem test_decode_bcd :
    decodeTableWord 32 0b00000000000000000000000100000100 = some .bcd := by decide
theorem test_decode_illegalOp0 :
    decodeTableWord 32 0b00000000000000000000000100000000 = some .illegalOp0 := by decide
theorem test_decode_illegalOp5 :
    decodeTableWord 32 0b00000000000000000000000100000101 = some .illegalOp5 := by decide
theorem test_decode_illegalOp6to7 :
    decodeTableWord 32 0b00000000000000000000000100000111 = some (.illegalOp6to7 1#1) := by decide
theorem test_decode_illegalOp8to15 :
    decodeTableWord 32 0b00000000000000000000000100001011 = some (.illegalOp8to15 3#3) := by decide
theorem test_decode_ctrlWriteNoStart :
    decodeTableWord 32 0b00000000000000010000000000000011 = some (.ctrlWriteNoStart 3#4 true) := by decide
/-- Reserved bits are ignored (R69). -/
theorem test_decode_reserved_bits_ignored :
    decodeTableWord 32 0b11111111111111101111111111110001 = some .unescape := by decide
/-- `b0` in bits 15:8, `b1` in bits 7:0 (R70). -/
theorem test_decode_esc7d : decodeTableWord 16 0b0111110100000001 = some .esc7d := by decide
theorem test_decode_escDelim : decodeTableWord 16 0b0111110100000010 = some .escDelim := by decide
theorem test_decode_lit7d : decodeTableWord 16 0b0111110101111101 = some .lit7d := by decide
theorem test_decode_lit7d_last : decodeTableWord 8 0b01111101 = some .lit7d := by decide
theorem test_decode_lit : decodeTableWord 16 0b0111111000000001 = some (.lit 0x7E#8) := by decide
/-- P1's transactions (R78). -/
theorem test_decode_wr :
    decode (.bus (.write4 0x00008#18 0x0000000F#32)) = .ok (.wr 0x00008#18 0x0000000F#32) := by rfl
theorem test_decode_rd : decode (.bus (.read 0x00018#18 .four)) = .ok (.rd 0x00018#18) := by rfl
theorem test_decode_wrb : decode (.bus (.write1 0x1000E#18 0x7E#8)) = .ok (.wrb 0x000E#16 0x7E#8) := by rfl
theorem test_decode_rdb_in : decode (.bus (.read 0x1FFFF#18 .one)) = .ok (.rdb .inp 0xFFFF#16) := by rfl
theorem test_decode_rdb_out : decode (.bus (.read 0x20000#18 .one)) = .ok (.rdb .out 0x0000#16) := by rfl
theorem test_decode_out_write_rejected :
    decode (.bus (.write1 0x20000#18 0x7E#8)) = .error .otherAccess := by rfl
theorem test_decode_loadin : decode (.pseudo (.loadin [0x7D, 0x01])) = .ok (.loadin [0x7D#8, 0x01#8]) := by rfl
theorem test_decode_cmd : decode (.pseudo (.cmd .decodeFrame)) = .ok (.cmd .decodeFrame) := by rfl
theorem test_decode_cmdi : decode (.pseudo (.cmdi .bcd)) = .ok (.cmdi .bcd) := by rfl
theorem test_decode_waitdone : decode (.pseudo .waitdone) = .ok .waitdone := by rfl
theorem test_decode_ack : decode (.pseudo .ack) = .ok .ack := by rfl
theorem test_decode_bcdarg : decode (.pseudo (.bcdarg 5 6)) = .ok (.bcdarg 5#32 6#16) := by rfl

/-! ### One step of each instruction -/

/-- U6: `7D 7D 01` gives `7D 7D`. -/
theorem test_unescape_reexamines :
    after (fun t => (t.frame, t.readReg .status)) (exec .unescape (withChunk [0x7D, 0x7D, 0x01])) =
      some ([0x7D, 0x7D], 0x00000002) := by decide
/-- U9, R85's example. -/
theorem test_unescape_mixed :
    after (fun t => (t.frame, t.outLen))
        (exec .unescape (withChunk [0x7E, 0x30, 0x7D, 0x02, 0x08, 0x7D, 0x01, 0x55, 0x7E])) =
      some ([0x7E, 0x30, 0x7E, 0x08, 0x7D, 0x55, 0x7E], 7) := by decide
/-- R94's example, S1. -/
theorem test_envelope_s1 :
    after (fun t => (t.readReg .envFlags, t.readReg .msgType, t.readReg .cks, t.readReg .devLo, t.readReg .status))
        (exec .envelope (withFrame frameS1)) =
      some (0x7F, 0x0100, 0x8D8D, 0x45678901, 0x00000002) := by decide
/-- E6: 13 bytes are loaded and short. -/
theorem test_envelope_thirteen_bytes :
    after (fun t => (t.readReg .envFlags, t.readReg .body, t.readReg .status))
        (exec .envelope (withFrame (frameS1.take 13))) =
      some (0x41, 0, 0x00000702) := by decide
/-- E1. -/
theorem test_decodeFrame_s1 :
    after (fun t => (t.readReg .status, t.readReg .body)) (exec .decodeFrame (withChunk frameS1)) =
      some (0x00001002, 0x0000000D) := by decide
/-- E14: the unknown type wins, the cause stays readable. -/
theorem test_decodeFrame_unknown_first :
    after (fun t => (t.readReg .status, t.readReg .envFlags)) (exec .decodeFrame (withChunk frameE14)) =
      some (0x00003312, 0x0F) := by decide
/-- B12: the device number of S1. -/
theorem test_bcd_device_number :
    after (fun t => (t.bcd.dig, t.readReg .bcdValHi, t.readReg .bcdValLo, t.readReg .bcdFlags))
        (exec .bcd { withFrame frameS1 with bcdOff := 5, bcdCnt := 6 }) =
      some (0x0000012345678901, 0x00000002, 0xDFDC1C35, 1) := by decide
/-- R77's example: the device number of S1 as characters. -/
theorem test_device_number_string :
    digitString ((withFrame frameS1).outBytes 5 6) =
      some [0x30, 0x31, 0x32, 0x33, 0x34, 0x35, 0x36, 0x37, 0x38, 0x39, 0x30, 0x31] := by decide
/-- B14: a marker is not BCD. -/
theorem test_bcd_marker :
    after (fun t => (t.bcd.dig, t.bcd.val, t.bcd.ok, t.status.err))
        (exec .bcd { withFrame frameS1 with bcdOff := 0, bcdCnt := 2 }) =
      some (0x7E01, 0, false, 5) := by decide
/-- CW1: `ERR` 8, `DONE`, nothing else. -/
theorem test_illegalOp0 :
    after (fun t => (t.readReg .status, t.outBuf)) (exec .illegalOp0 (running 0 0 (withFrame [0x7E]))) =
      some (0x00000082, [(0, 0x7E)]) := by decide
theorem test_illegalOp5 :
    after (fun t => t.readReg .status) (exec .illegalOp5 (running 5 0 State.reset)) = some 0x00000082 := by decide
theorem test_illegalOp6to7 :
    after (fun t => t.readReg .status) (exec (.illegalOp6to7 1) (running 7 0 State.reset)) = some 0x00000082 := by
  decide
/-- CW2. -/
theorem test_illegalOp8to15 :
    after (fun t => t.readReg .status) (exec (.illegalOp8to15 7) (running 15 0 State.reset)) = some 0x00000082 := by
  decide
/-- CW3: `OP` 3 stored, no command. -/
theorem test_ctrlWriteNoStart :
    after (fun t => (t.readReg .ctrl, t.status.busy)) (exec (.ctrlWriteNoStart 3 false) State.reset) =
      some (0x00000003, false) := by decide
/-- R80's example. -/
theorem test_esc7d :
    after (fun t => (t.outBuf, t.cursorI, t.cursorO)) (exec .esc7d (withChunk [0x7D, 0x01])) =
      some ([(0, 0x7D)], 2, 1) := by decide
/-- R81's example. -/
theorem test_escDelim :
    after (fun t => (t.outBuf, t.cursorI, t.cursorO)) (exec .escDelim (withChunk [0x7D, 0x02])) =
      some ([(0, 0x7E)], 2, 1) := by decide
/-- R82's example: the byte after the `7D` is not consumed. -/
theorem test_lit7d :
    after (fun t => (t.outBuf, t.cursorI, t.cursorO)) (exec .lit7d (withChunk [0x7D, 0x03])) =
      some ([(0, 0x7D)], 1, 1) := by decide
/-- U5: a trailing lone `7D`. -/
theorem test_lit7d_last :
    after (fun t => (t.outBuf, t.cursorI)) (exec .lit7d (withChunk [0x7D])) = some ([(0, 0x7D)], 1) := by decide
/-- R83's example: the delimiter is a literal. -/
theorem test_lit :
    after (fun t => (t.outBuf, t.cursorI, t.cursorO)) (exec (.lit 0x7E) (withChunk [0x7E, 0x01])) =
      some ([(0, 0x7E)], 1, 1) := by decide
/-- CW4: dropped while busy, `HAZ` set, `CTRL` unchanged. -/
theorem test_wr_ctrl_while_busy :
    after (fun t => (t.readReg .status, t.readReg .ctrl)) (exec (.wr 0x000 0x00010103) (running 1 0 State.reset)) =
      some (0x00000005, 0x00000001) := by decide
/-- R31: OFF in bits 15:0, CNT in bits 19:16, the rest ignored. -/
theorem test_wr_bcd_arg :
    after (fun t => (t.bcdOff, t.bcdCnt, t.readReg .bcdArg)) (exec (.wr 0x010 0xFFF8000D) State.reset) =
      some (0x000D, 8, 0x0008000D) := by decide
/-- R53: `CTRL.START` reads 0. -/
theorem test_rd_ctrl :
    after (fun t => t.busData) (exec (.rd 0x000) { State.reset with ctrlOp := 3, ctrlIe := true }) =
      some 0x00010003 := by decide
/-- R45: a reserved offset reads 0. -/
theorem test_rd_reserved :
    after (fun t => t.busData) (exec (.rd 0x050) { State.reset with busData := 0xFFFFFFFF }) = some 0 := by decide
/-- R54: the byte is stored and written. -/
theorem test_wrb :
    after (fun t => (t.inBuf, t.inByte 1)) (exec (.wrb 1 0x8D) (withChunk [0x7E])) =
      some ([(0, 0x7E), (1, 0x8D)], some 0x8D) := by decide
/-- P4 (b): dropped while busy. -/
theorem test_wrb_while_busy :
    after (fun t => (t.inBuf, t.status.haz)) (exec (.wrb 0 0x00) (running 3 0 (withChunk [0x8D]))) =
      some ([(0, 0x8D)], true) := by decide
/-- R55: `IN` and `OUT` read back. -/
theorem test_rdb_in :
    after (fun t => t.busData) (exec (.rdb .inp 1) (withChunk [0x7E, 0x8D])) = some 0x0000008D := by decide
theorem test_rdb_out :
    after (fun t => t.busData) (exec (.rdb .out 13) (withFrame frameS1)) = some 0x0000008D := by decide
/-- R79: the first write, the others to come. -/
theorem test_loadin :
    after (fun t => (t.inBuf, t.pending)) (exec (.loadin [0x7D, 0x01]) State.reset) =
      some ([(0, 0x7D)], [.access (.write1 0x10001 0x01), .access (.write4 0x00008 0x00000002)]) := by decide
/-- CMD DECODE_FRAME is `WR CTRL, 0x00000103`. -/
theorem test_cmd :
    after (fun t => (t.readReg .ctrl, t.readReg .status, t.pendOp))
        (exec (.cmd .decodeFrame) { State.reset with status := { Status.reset with done := true, err := 5 } }) =
      some (0x00000003, 0x00000001, 3) := by decide
/-- CMDI sets IE (P3). -/
theorem test_cmdi :
    after (fun t => (t.readReg .ctrl, t.status.busy)) (exec (.cmdi .decodeFrame) State.reset) =
      some (0x00010003, true) := by decide
/-- R79: repeated until bit 1 is 1. -/
theorem test_waitdone_repeats :
    after (fun t => (t.busData, t.pending)) (exec .waitdone (running 3 1 State.reset)) =
      some (0x00000001, [.line .waitdone]) := by decide
theorem test_waitdone_ends :
    after (fun t => (t.busData, t.pending))
        (exec .waitdone { State.reset with status := { Status.reset with done := true, cls := 1 } }) =
      some (0x00001002, []) := by decide
/-- ACK clears `DONE` and `HAZ` only. -/
theorem test_ack :
    after (fun t => t.readReg .status)
        (exec .ack { State.reset with status := { Status.reset with done := true, haz := true, err := 4 } }) =
      some 0x00000040 := by decide
/-- P2: `BCDARG 5, 6`. -/
theorem test_bcdarg :
    after (fun t => t.readReg .bcdArg) (exec (.bcdarg 5 6) State.reset) = some 0x00060005 := by decide

/-- R79, R52: `(0x00020005 << 0) | (4 << 16)` is 0x00060005, an `imm32` like any other. -/
theorem test_bcdarg_wide :
    after (fun t => t.readReg .bcdArg) (exec (.bcdarg 0x00020005 4) State.reset) = some 0x00060005 := by decide
/-- R50: the OUT window above the buffer reads 0 while a command runs. -/
theorem test_rdb_out_above_while_busy :
    after (fun t => t.busData) (exec (.rdb .out 0xFFFF) { running 1 0 State.reset with busData := 1 }) = some 0 := by
  have h : Config.maxInLen ≤ (0xFFFF : BitVec 16).toNat := (show Config.maxInLen ≤ 65535 by simp only [Config.maxInLen]; omega)
  simp only [exec, execRdb, State.hostAccess, windowOf_windowOffset, windowIndex_windowOffset, State.busReadOut, if_pos h]
  rfl

/-! ### Steps -/

/-- E8 and E7: the placed command word runs first. -/
theorem test_step_placed_command :
    after (fun t => t.readReg .status) (step (State.reset.withFetchWord 32 0x00000103)) = some 0x00000742 := by decide
/-- The placed token window runs first. -/
theorem test_step_placed_token :
    after (fun t => t.outBuf) (step (State.reset.withFetchWord 16 0x7D02)) = some [(0, 0x7E)] := by decide
/-- R136: an unwritten byte is the model fault. -/
theorem test_unwritten_input_faults :
    stops (exec .unescape { State.reset with inLen := 1 }) = true := by decide
/-- R133: the reset input abandons a command. -/
theorem test_reset_abandons :
    after (fun t => (t.readReg .status, t.inBuf, t.pending))
        (step { running 1 1 (withChunk [0x7E]) with pending := [.rst, .line .ack] }) =
      some (0, [], [.line .ack]) := by decide
/-- P4: with the latency used up the engine moves, before that the host does. -/
theorem test_engine_moves_at_latency_zero :
    after (fun t => (t.readReg .status, t.pending.length))
        (step { running 3 0 (withChunk frameS1) with pending := [.access (.write1 0x1000D 0x00)] }) =
      some (0x00001002, 1) := by decide
theorem test_host_moves_before_latency :
    after (fun t => (t.readReg .status, t.latency))
        (step { running 3 1 (withChunk frameS1) with pending := [.access (.write1 0x1000D 0x00)] }) =
      some (0x00000005, 0) := by decide

/-! ### Witnesses: states and operands that meet the hypotheses of the statements

A clause that asks for `IN_LEN` above `MAX_IN_LEN` (an open parameter, at most 65535) has a witness exactly when the
parameter is below 65535, and one that asks for an index below it is shown at 14, the last index every block has. -/

theorem maxInLen_range : 15 ≤ Config.maxInLen ∧ Config.maxInLen ≤ 65535 := by
  simp only [Config.maxInLen]
  omega

/-- A chunk of at most 15 bytes, all of them written, is ready. -/
theorem chunkReady_of_small {s : State} (h : s.inLen.toNat ≤ 15)
    (hw : ∀ k, k < s.inLen.toNat → (s.inByte k).isSome = true) : s.ChunkReady :=
  ⟨Nat.le_trans h maxInLen_range.1, hw⟩

/-- A state whose `IN_LEN` is `MAX_IN_LEN + 1`, where that is a 16-bit number. -/
def tooLong : State := { State.reset with inLen := BitVec.ofNat 16 (Config.maxInLen + 1) }

/-- S1's frame with one byte replaced. -/
def s1With (k : Nat) (b : Byte) : State := { withFrame frameS1 with outBuf := (bufOf frameS1).write k b }

theorem s1With_other (k j : Nat) (b : Byte) (h : j ≠ k) : (s1With k b).outByte j = (withFrame frameS1).outByte j := by
  show ((bufOf frameS1).write k b |>.read j).getD _ = _
  rw [Memory.read_write_other _ _ h]
  rfl

/-- S1's frame with two bytes replaced. -/
def s1With2 (k l : Nat) (b c : Byte) : State :=
  { withFrame frameS1 with outBuf := ((bufOf frameS1).write k b).write l c }

theorem s1With2_other (k l j : Nat) (b c : Byte) (hk : j ≠ k) (hl : j ≠ l) :
    (s1With2 k l b c).outByte j = (withFrame frameS1).outByte j := by
  show (((bufOf frameS1).write k b).write l c |>.read j).getD _ = _
  rw [Memory.read_write_other _ _ hl, Memory.read_write_other _ _ hk]
  rfl

theorem witness_EncodedInstructionsDecode :
    (Instr.wr 0x0FFFC#18 0xFFFFFFFF#32).WellFormed ∧ (Instr.lit 0x7E#8).WellFormed ∧
    (Instr.loadin [0x7D#8, 0xFF#8]).WellFormed := by decide

theorem witness_TokensReadFromTheStream_pair :
    (Token.toInstr .esc7d).WellFormed ∧ encode (Token.toInstr .esc7d) = .esctok [0x7D, 0x01] ∧
    (Token.esc7d = .lit7d → ([0x7E] : List Byte).head? ≠ some 0x01#8 ∧ ([0x7E] : List Byte).head? ≠ some 0x02#8) := by
  decide
theorem witness_TokensReadFromTheStream_lone :
    (Token.toInstr .lit7d).WellFormed ∧ encode (Token.toInstr .lit7d) = .esctok [0x7D] ∧
    (Token.lit7d = .lit7d → ([0x7D] : List Byte).head? ≠ some 0x01#8 ∧ ([0x7D] : List Byte).head? ≠ some 0x02#8) := by
  decide

/-- An access that waits in several witnesses. -/
def anAccess : HostInput := .access (.read 0x00004#18 .four)

theorem witness_StepRuns_engine_latency_zero :
    (fun s : State => s.scanning = false ∧ s.status.busy = true ∧ (s.latency = 0 ∨ s.pending = []))
      { running 15 0 State.reset with pending := [anAccess] } := by decide
theorem witness_StepRuns_engine_nothing_pending :
    (fun s : State => s.scanning = false ∧ s.status.busy = true ∧ (s.latency = 0 ∨ s.pending = []))
      (running 1 3 State.reset) := by decide
theorem witness_StepRuns_access :
    (fun s : State => s.scanning = false ∧ (s.status.busy = false ∨ s.latency ≠ 0) ∧ s.pending = [anAccess] ∧
      decode (.bus (.read 0x00004#18 .four)) = .ok (.rd 0x00004#18))
      { running 1 1 State.reset with pending := [anAccess] } := ⟨rfl, .inr (by decide), rfl, rfl⟩
theorem witness_StepRuns_line :
    (fun s : State => s.scanning = false ∧ (s.status.busy = false ∨ s.latency ≠ 0) ∧ s.pending = [.line .ack] ∧
      decode (.pseudo .ack) = .ok .ack)
      { State.reset with pending := [.line .ack] } := ⟨rfl, .inl rfl, rfl, rfl⟩
theorem witness_StepRuns_ctrlWord_store :
    (fun s : State => s.scanning = false ∧ (s.status.busy = false ∨ s.latency ≠ 0) ∧
      s.pending = [.ctrlWord 0x00010003#32] ∧ (0x00010003#32).getLsbD 8 = false ∧
      decode (.ctrl 0x00010003#32) = .ok (.ctrlWriteNoStart 3#4 true))
      { State.reset with pending := [.ctrlWord 0x00010003#32] } := ⟨rfl, .inl rfl, rfl, by decide, rfl⟩
theorem witness_StepRuns_ctrlWord_start :
    (fun s : State => s.scanning = false ∧ (s.status.busy = false ∨ s.latency ≠ 0) ∧
      s.pending = [.ctrlWord 0x00000103#32] ∧ (0x00000103#32).getLsbD 8 = true)
      { State.reset with pending := [.ctrlWord 0x00000103#32] } := ⟨rfl, .inl rfl, rfl, by decide⟩
theorem witness_StepRuns_token :
    (fun s : State => s.scanning = true ∧ s.fetchToken = .window 0x7D#8 (some 0x02#8) ∧
      decode (.esctok [0x7D#8, 0x02#8]) = .ok .escDelim)
      { withChunk [0x7D, 0x02] with scanning := true } := ⟨rfl, by decide, rfl⟩

theorem witness_IdleBlockHoldsItsState :
    State.reset.scanning = false ∧ State.reset.status.busy = false ∧ State.reset.pending = [] := by decide

theorem witness_RunningCommandCompletes :
    (fun s : State => s.scanning = false ∧ s.status.busy = true ∧ ∀ h, h ∈ s.pending → h ≠ .rst)
      { running 3 2 (withChunk frameS1) with pending := [anAccess, .line .waitdone] } := by decide

theorem witness_ResetInputRestoresReset :
    (fun s : State => s.scanning = false ∧ (s.status.busy = false ∨ s.latency ≠ 0) ∧ s.pending = [.rst])
      { running 1 1 (withChunk [0x7E]) with pending := [.rst] } := by decide

/-- A running command on a chunk of one byte meets the invariant. -/
theorem witness_StepKeepsTheInvariant :
    (running 1 0 (withChunk [0x7D])).Inv ∧
      ∃ t, step (running 1 0 (withChunk [0x7D])) = .next t ∧ t.outLen = 1#16 := by
  have h := maxInLen_range
  refine ⟨⟨by decide, ?_, by decide, by decide, ?_, ?_, by decide, by decide, by decide, by decide, by decide, by decide⟩,
    ?_⟩
  · show decide (0 < Config.maxInLen) && true = true
    simp
    omega
  · show 0 ≤ Config.maxInLen
    omega
  · intro k hk
    exact absurd hk (Nat.not_lt_zero k)
  · exact ⟨_, rfl, rfl⟩

theorem witness_ChunkReady : (withChunk frameS1).ChunkReady := chunkReady_of_small (by decide) (by decide)
theorem witness_ChunkReady_empty : (withChunk []).ChunkReady := chunkReady_of_small (by decide) (by decide)
theorem witness_chunkTooLong (h : Config.maxInLen < 65535) : Config.maxInLen < tooLong.inLen.toNat := by
  show Config.maxInLen < (BitVec.ofNat 16 (Config.maxInLen + 1)).toNat
  simp only [BitVec.toNat_ofNat]
  omega
/-- The last of 15 bytes, unwritten. -/
theorem witness_chunkUnwritten :
    (fun s : State => s.inLen.toNat ≤ Config.maxInLen ∧ ∃ k, k < s.inLen.toNat ∧ s.inByte k = none)
      { withChunk (frameS1.take 14) with inLen := 15 } :=
  ⟨maxInLen_range.1, 14, by decide, by decide⟩

theorem witness_UnescapeUndoesStuffing :
    (withChunk [0x7D, 0x02, 0x7D, 0x01, 0x30]).ChunkReady ∧
      (withChunk [0x7D, 0x02, 0x7D, 0x01, 0x30]).chunk = stuff [0x7E, 0x7D, 0x30] :=
  ⟨chunkReady_of_small (by decide) (by decide), by decide⟩

theorem witness_UnescapeIsItsTokens : (withChunk [0x7D, 0x02]).scanning = false ∧ (withChunk [0x7D, 0x02]).ChunkReady :=
  ⟨rfl, chunkReady_of_small (by decide) (by decide)⟩

/-- The pair that ends the chunk, the lone `7D` at its end, the one before another byte, and the literal. -/
theorem witness_TokensEmitAndAdvance :
    (fun s : State => 0 = s.cursorI.toNat ∧ 2 = s.inLen.toNat ∧ s.inByte 0 = some 0x7D#8 ∧ 0 + 1 < 2 ∧
      s.inByte (0 + 1) = some 0x01#8) (withChunk [0x7D, 0x01]) ∧
    (fun s : State => 0 = s.cursorI.toNat ∧ 2 = s.inLen.toNat ∧ s.inByte 0 = some 0x7D#8 ∧ 0 + 1 < 2 ∧
      s.inByte (0 + 1) = some 0x02#8) (withChunk [0x7D, 0x02]) ∧
    (fun s : State => 1 = s.cursorI.toNat ∧ 2 = s.inLen.toNat ∧ s.inByte 1 = some 0x7D#8 ∧ 1 + 1 = 2)
      { withChunk [0x7D, 0x7D] with cursorI := 1 } ∧
    (fun s : State => 0 = s.cursorI.toNat ∧ 2 = s.inLen.toNat ∧ s.inByte 0 = some 0x7D#8 ∧ 0 + 1 < 2 ∧
      s.inByte (0 + 1) = some 0x03#8 ∧ (0x03#8 : Byte) ≠ 0x01#8 ∧ (0x03#8 : Byte) ≠ 0x02#8) (withChunk [0x7D, 0x03]) ∧
    (fun s : State => 1 = s.cursorI.toNat ∧ 2 = s.inLen.toNat ∧ s.inByte 1 = some 0x7E#8 ∧ (0x7E#8 : Byte) ≠ 0x7D#8)
      { withChunk [0x7D, 0x7E] with cursorI := 1 } ∧
    (fun s : State => 0 = s.cursorI.toNat ∧ 1 = s.inLen.toNat ∧ s.fetchToken = .window 0x7D#8 none ∧
      decodeToken 0x7D#8 none ≠ .esc7d) (withChunk [0x7D]) := by decide

/-- A token at an unwritten byte, a command that always completes, and a run that has ended in the fault. -/
theorem witness_UnwrittenInputIsTheOnlyFault :
    stops (exec (Token.toInstr .lit7d) { withChunk [0x7D] with inLen := 2 }) = true ∧
    (Instr.bcd ≠ .unescape ∧ Instr.bcd ≠ .decodeFrame ∧ Instr.bcd.format ≠ .esctok) ∧
    stops (Host.Core.run Sys2Proof.core 1 (running 3 0 { State.reset with inLen := 1 })) = true := by decide

/-- The flags of a valid frame, of a short one, of one with a bad marker and of one with a bad checksum only; a header
with and without a bad digit. -/
theorem witness_EnvelopeReportsCauseAndError :
    (envFlagsOf 15 (withFrame frameS1).outByte).isValid = true ∧
    (fun f : EnvFlags => f.isValid = false ∧ f.lenOk = false) (envFlagsOf 14 (withFrame frameS1).outByte) ∧
    (fun f : EnvFlags => f.isValid = false ∧ f.lenOk = true ∧ f.startOk = false)
      (envFlagsOf 15 (s1With 0 0x7F).outByte) ∧
    (fun f : EnvFlags => f.isValid = false ∧ f.lenOk = true ∧ f.endOk = false)
      (envFlagsOf 15 (s1With 14 0x7F).outByte) ∧
    (fun f : EnvFlags => f.isValid = false ∧ f.lenOk = true ∧ f.startOk = true ∧ f.endOk = true)
      (envFlagsOf 15 (s1With 12 0x03).outByte) ∧
    (fun f : EnvFlags => f.loaded = true ∧ f.devBcdOk = false) (envFlagsOf 13 (s1With 10 0x0A).outByte) ∧
    (fun f : EnvFlags => ¬(f.loaded = true ∧ f.devBcdOk = false)) (envFlagsOf 12 (s1With 10 0x0A).outByte) := by decide

/-- 12, 13, 14 and 15 bytes. -/
theorem witness_EnvelopeLengths :
    (withFrame (frameS1.take 12)).outLen.toNat < 13 ∧ 13 ≤ (withFrame (frameS1.take 13)).outLen.toNat ∧
    (withFrame (frameS1.take 14)).outLen.toNat < 15 ∧ 15 ≤ (withFrame frameS1).outLen.toNat := by decide

/-- Encryption modes 0, 1, 2 and 7. -/
theorem witness_EnvelopeExtractsTheHeader :
    (envelopeOf 13 (withFrame frameS1).outByte).encRaw = 0#3 ∧ (envelopeOf 13 (s1With 3 0x04).outByte).encRaw = 1#3 ∧
    2 ≤ (envelopeOf 13 (s1With 3 0x08).outByte).encRaw.toNat ∧
    2 ≤ (envelopeOf 13 (s1With 3 0x1C).outByte).encRaw.toNat := by decide

/-- One bit flipped at each end of the range, in the checksum byte and in each marker. -/
theorem witness_ChecksumLaws_flips :
    (15 = (withFrame frameS1).outLen.toNat ∧ 15 ≤ 15) ∧
    (∀ k, k = 1 ∨ k = 12 ∨ k = 13 ∨ k = 0 ∨ k = 14 → ∀ b : Nat, b = 0 ∨ b = 7 →
      (s1With k ((withFrame frameS1).outByte k ^^^ (1#8 <<< b))).outLen = (withFrame frameS1).outLen ∧
      (s1With k ((withFrame frameS1).outByte k ^^^ (1#8 <<< b))).outByte k =
        (withFrame frameS1).outByte k ^^^ (1#8 <<< b) ∧
      ∀ j, j ≠ k → (s1With k ((withFrame frameS1).outByte k ^^^ (1#8 <<< b))).outByte j =
        (withFrame frameS1).outByte j) := by
  refine ⟨by decide, fun k _ b _ => ⟨rfl, ?_, fun j hj => s1With_other k j _ hj⟩⟩
  show ((bufOf frameS1).write k _ |>.read k).getD _ = _
  rw [Memory.read_write_same]
  rfl
/-- Offsets 1 and 12 with bit 7 of both flipped, and swapped. -/
theorem witness_ChecksumLaws_pairs :
    (fun s s' : State => s'.outLen = s.outLen ∧ s'.outByte 1 = s.outByte 1 ^^^ (1#8 <<< 7) ∧
      s'.outByte 12 = s.outByte 12 ^^^ (1#8 <<< 7) ∧ ∀ j, j ≠ 1 → j ≠ 12 → s'.outByte j = s.outByte j)
      (withFrame frameS1) (s1With2 1 12 0x81 0x81) ∧
    (fun s s' : State => s'.outLen = s.outLen ∧ s'.outByte 2 = s.outByte 12 ∧
      s'.outByte 12 = s.outByte 2 ∧ ∀ j, j ≠ 2 → j ≠ 12 → s'.outByte j = s.outByte j)
      (withFrame frameS1) (s1With2 2 12 0x01 0x00) :=
  ⟨⟨rfl, by decide, by decide, fun j => s1With2_other 1 12 j _ _⟩,
    ⟨rfl, by decide, by decide, fun j => s1With2_other 2 12 j _ _⟩⟩

/-- The verdict's branches: no header, an unknown type (never recognised), the location report, a recognised type, a
bad digit, an invalid frame and a valid one. -/
theorem witness_DecodeFrameGivesTheVerdict :
    (withChunk frameE14).ChunkReady ∧ (withChunk (frameS1.take 12)).ChunkReady ∧
    (envelopeOf 12 (withFrame frameS1).outByte).flags.loaded = false ∧
    (fun e : Envelope => e.flags.loaded = true ∧ e.msgType ≠ 0x0200#16 ∧ Config.recognized e.msgType = false)
      (envelopeOf 15 (withFrame frameE14).outByte) ∧
    (fun e : Envelope => e.flags.loaded = true ∧ e.msgType = 0x0200#16) (envelopeOf 15 (s1With 1 0x02).outByte) ∧
    (fun e : Envelope => e.flags.loaded = true ∧ e.msgType ≠ 0x0200#16 ∧ Config.recognized e.msgType = true ∧
      e.flags.devBcdOk = true ∧ e.flags.isValid = true) (envelopeOf 15 (withFrame frameS1).outByte) ∧
    (fun e : Envelope => e.flags.loaded = true ∧ Config.recognized e.msgType = true ∧ e.flags.devBcdOk = false)
      (envelopeOf 15 (s1With 10 0x0A).outByte) ∧
    (fun e : Envelope => e.flags.loaded = true ∧ Config.recognized e.msgType = true ∧ e.flags.devBcdOk = true ∧
      e.flags.isValid = false) (envelopeOf 13 (withFrame frameS1).outByte) := by
  refine ⟨chunkReady_of_small (by decide) (by decide), chunkReady_of_small (by decide) (by decide), ?_⟩
  decide

/-- A BCD state over S1's frame. -/
def bcdState (off : BitVec 16) (cnt : BitVec 4) : State := { withFrame frameS1 with bcdOff := off, bcdCnt := cnt }

/-- The count at 0 (with the offset at the end of the frame) and at 8 (ending at the end of the frame); the count at 9
and the range one byte too far; digits only and not. -/
theorem witness_BcdConvertsTheField :
    (fun s : State => s.bcdCnt.toNat ≤ 8 ∧ s.bcdOff.toNat + s.bcdCnt.toNat ≤ s.outLen.toNat) (bcdState 15 0) ∧
    (fun s : State => s.bcdCnt.toNat ≤ 8 ∧ s.bcdOff.toNat + s.bcdCnt.toNat ≤ s.outLen.toNat ∧
      ¬ decimalByte (s.outByte (s.bcdOff.toNat + 7))) (bcdState 7 8) ∧
    (fun s : State => s.bcdCnt.toNat ≤ 8 ∧ s.bcdOff.toNat + s.bcdCnt.toNat ≤ s.outLen.toNat ∧
      ∀ j, j < s.bcdCnt.toNat → decimalByte (s.outByte (s.bcdOff.toNat + j))) (bcdState 5 6) ∧
    8 < (bcdState 0 9).bcdCnt.toNat ∧
    (fun s : State => s.outLen.toNat < s.bcdOff.toNat + s.bcdCnt.toNat) (bcdState 8 8) := by
  simp only [decimalByte]
  decide
theorem witness_BcdByteLaws :
    (fun s : State => s.bcdCnt = 1#4 ∧ s.bcdOff.toNat < s.outLen.toNat ∧
      (s.outByte s.bcdOff.toNat).toNat = 16 * 0 + 1) (bcdState 12 1) ∧
    (fun s : State => s.bcdCnt = 1#4 ∧ s.bcdOff.toNat < s.outLen.toNat ∧
      9 < (s.outByte s.bcdOff.toNat).toNat % 16) (bcdState 14 1) := by decide

/-- The reserved values at the ends of their range, in a word with START. -/
theorem witness_ReservedCommandsComplete :
    reservedOp 0#4 = true ∧ reservedOp 5#4 = true ∧ reservedOp 15#4 = true ∧ reservedOp 4#4 = false ∧
    (0x00000105#32).getLsbD 8 = true ∧ reservedOp ((0x00000105#32).extractLsb' 0 4) = true ∧
    State.reset.status.busy = false := by decide
/-- Words that the masks of UNESCAPE, DECODE_FRAME and BCD take, every ignored bit 1. -/
theorem witness_command_words :
    0xFFFFFFF1#32 &&& 0x0000010F#32 = 0x00000101#32 ∧ 0xFFFFFFF3#32 &&& 0x0000010F#32 = 0x00000103#32 ∧
    0xFFFFFFF4#32 &&& 0x0000010F#32 = 0x00000104#32 := by decide
theorem witness_BoundsLeavesAllElse :
    after (fun t => t.status.err) (exec (decodeOp 4#4) (bcdState 0 9)) = some 9#4 := by decide
theorem witness_EveryCommandCompletes :
    after (fun t => t.status.done) (exec (decodeOp 1#4) (running 1 0 (withChunk [0x7D]))) = some true := by rfl

/-- Two states that differ in everything but the inputs of the commands. -/
theorem witness_CommandsDependOnTheirInputsOnly :
    (fun s s' : State => s.ChunkReady ∧ s'.inLen = s.inLen ∧ (∀ k, k < s.inLen.toNat → s'.inByte k = s.inByte k))
      (withChunk [0x7E]) { running 1 0 (withChunk [0x7E]) with inBuf := bufOf [0x7E, 0x55], cursorI := 9 } ∧
    (fun s s' : State => s'.outLen = s.outLen ∧ (∀ k, k < s.outLen.toNat → s'.outByte k = s.outByte k) ∧
      s'.bcdOff = s.bcdOff ∧ s'.bcdCnt = s.bcdCnt ∧ s.bcdCnt.toNat ≤ 8 ∧
      s.bcdOff.toNat + s.bcdCnt.toNat ≤ s.outLen.toNat)
      (bcdState 7 8) { running 4 0 (bcdState 7 8) with inLen := 3, draws := 5 } :=
  ⟨⟨chunkReady_of_small (by decide) (by decide), rfl, by decide⟩, by decide⟩

/-- Idle and busy, with START and without. -/
theorem witness_busy_and_idle :
    State.reset.status.busy = false ∧ (running 1 0 State.reset).status.busy = true ∧
    (0x00000100#32).getLsbD 8 = true ∧ (0x00000000#32).getLsbD 8 = false ∧ (0x00000000#32).getLsbD 16 = false ∧
    (0x00000002#32).getLsbD 1 = true := by decide
/-- The greatest operands that fit, and one that does not. -/
theorem witness_BcdargWritesTheOperands :
    (0x0000FFFF#32).toNat < 65536 ∧ (0x000F#16).toNat < 16 ∧ ¬(0x00010000#32).toNat < 65536 := by decide
theorem witness_CmdIssuesTheNamedCommand : (4#4 : BitVec 4) = commandCode .bcd := by decide

/-- The last register, the first reserved offset and the last one. -/
theorem witness_RegisterAccesses :
    (fun off : BitVec 18 => off.toNat < 0x10000 ∧ off.toNat % 4 = 0 ∧ 0x14 ≤ off.toNat ∧ off.toNat ≤ 0x4C ∧
      off = regOffset .cfg) 0x0004C#18 ∧
    (fun off : BitVec 18 => off.toNat < 0x10000 ∧ off.toNat % 4 = 0 ∧ off.toNat ≤ 0x48 ∧ off = regOffset .bcdFlags)
      0x00048#18 ∧
    (fun off : BitVec 18 => off.toNat < 0x10000 ∧ off.toNat % 4 = 0 ∧ 0x50 ≤ off.toNat) 0x00050#18 ∧
    (fun off : BitVec 18 => off.toNat < 0x10000 ∧ off.toNat % 4 = 0 ∧ 0x50 ≤ off.toNat) 0x0FFFC#18 := by decide

/-- Index 65535 lies outside every block, index 14 inside; the OUT window's first offset. -/
theorem witness_ByteAccesses :
    Config.maxInLen ≤ (0xFFFF#16).toNat ∧ (14#16).toNat < Config.maxInLen ∧ 0x20000 ≤ (0x20000#18).toNat ∧
    (withChunk frameS1).inByte (14#16).toNat = some 0x7E#8 ∧ State.reset.inByte (14#16).toNat = none ∧
    (14#16).toNat < (withFrame frameS1).outLen.toNat ∧ State.reset.outLen.toNat ≤ (14#16).toNat :=
  ⟨maxInLen_range.2, maxInLen_range.1, by decide, by decide, by decide, by decide, by decide⟩

/-- A busy block whose first input byte is written. -/
theorem witness_ResultsReadAsDrawsWhileBusy :
    (fun s : State => s.status.busy = true ∧ s.inByte (0#16).toNat = some 0x7E#8) (running 1 0 (withChunk [0x7E])) ∧
    (0#16).toNat < Config.maxInLen ∧ byHost (.rd 0x00004#18) = true ∧
    after (fun t => t.draws) (exec (.rd 0x00018#18) (running 1 0 (withChunk [0x7E]))) = some 1 :=
  ⟨by decide, Nat.lt_of_lt_of_le (by decide) maxInLen_range.1, by decide, by decide⟩

/-- A word access at an odd offset and in a window, byte accesses outside the windows, and such an access presented. -/
theorem witness_OtherAccessesDoNothing :
    (0x00003#18).toNat % 4 ≠ 0 ∧ 0x10000 ≤ (0x10000#18).toNat ∧ (0x0FFFF#18).toNat < 0x10000 ∧
    0x30000 ≤ (0x30000#18).toNat ∧
    (fun s : State => s.scanning = false ∧ (s.status.busy = false ∨ s.latency ≠ 0) ∧
      s.pending = [.access (.read 0x30000#18 .one)]) { State.reset with pending := [.access (.read 0x30000#18 .one)] } ∧
    decode (.bus (.read 0x30000#18 .one)) = .error .otherAccess :=
  ⟨by decide, by decide, by decide, by decide, by decide, rfl⟩

/-- `HAZ` falls by ACK and rises by a dropped write; a START, a completion, a flag that changes. -/
theorem witness_flag_changes :
    after (fun t => t.status.haz) (exec .ack { State.reset with status := { Status.reset with haz := true } }) =
      some false ∧
    after (fun t => t.status.haz) (exec (.cmd .bcd) (running 1 0 State.reset)) = some true ∧
    after (fun t => t.status.busy) (exec (.wr 0x00000#18 0x00000104#32) State.reset) = some true ∧
    after (fun t => (t.status.busy, t.status.done)) (exec .bcd (running 4 0 (bcdState 5 6))) = some (false, true) ∧
    after (fun t => t.bcd.ok) (exec .bcd (running 4 0 (bcdState 5 6))) = some true ∧
    after (fun t => t.env.flags.loaded) (exec .envelope (running 2 0 (withFrame frameS1))) = some true := by decide
theorem witness_HostLeavesTheEngineAlone :
    byHost (.wr 0x00000#18 0x00000101#32) = true ∧
      after (fun t => t.status.busy) (exec (.wr 0x00000#18 0x00000101#32) (running 1 0 State.reset)) = some true := by
  decide

/-- A chunk of 15 bytes, which every block can hold. -/
theorem witness_LoadinLoadsTheChunk :
    (fun s : State => s.scanning = false ∧ s.status.busy = false ∧ frameS1.length ≤ Config.maxInLen ∧
      s.pending = .line (.loadin frameS1) :: [])
      { State.reset with pending := [.line (.loadin frameS1)] } :=
  ⟨rfl, rfl, maxInLen_range.1, rfl⟩
theorem witness_WaitdonePollsStatus :
    State.reset.status.done = false ∧
      ({ State.reset with status := { Status.reset with done := true } } : State).status.done = true := by decide
theorem witness_ParametersKeepTheirConstraints : busOffset (Config.base + 4) = some 4#18 := by
  simp [busOffset]

end Sys2Proof.Tests
end

