-- ==== Sys2Proof/Proofs/Reset.lean ====
section
/-! The state after reset (R48): what each register reads, what the buffers hold, and the level of `IRQ`. -/

namespace Sys2Proof.Machine

/-! ### Registers -/

/-- `CFG` is a constant, so reset has no part in it (R44). -/
@[simp] theorem State.readReg_cfg (s : State) : s.readReg .cfg = BitVec.ofNat 32 Config.maxInLen := rfl

/-- Every register but the constant one is a concatenation of fields that reset sets to 0 and of reserved bits. -/
theorem State.readReg_reset_of_ne_cfg {r : Reg} (hr : r ≠ .cfg) : State.reset.readReg r = 0#32 := by
  cases r with
  | cfg => exact absurd rfl hr
  | _ => decide

/-! ### Buffers -/

/-- Every written bit `W[k]` is 0 (R24, R48). -/
@[simp] theorem State.inByte_reset (k : Nat) : State.reset.inByte k = none := Memory.read_nil k

@[simp] theorem State.outBuf_read_reset (k : Nat) : State.reset.outBuf.read k = none := Memory.read_nil k

/-! ### The interrupt line -/

theorem State.irq_eq_false_of_done_eq_false {s : State} (h : s.status.done = false) : s.irq = false := by
  simp [State.irq, h]

@[simp] theorem State.irq_reset : State.reset.irq = false := State.irq_eq_false_of_done_eq_false rfl

/-- Settles O8: register by register for the values, and by the empty buffers for `IN` and `OUT`. -/
theorem resetLeavesTheStatedValues : Obligations.ResetLeavesTheStatedValues :=
  ⟨fun _ hr => State.readReg_reset_of_ne_cfg hr, State.readReg_cfg State.reset, rfl, rfl,
    State.inByte_reset, rfl, State.outBuf_read_reset, State.irq_reset⟩

end Sys2Proof.Machine
end

