-- ==== Sys2Proof/Proofs/HostBus.lean ====
section
/-! The host's bus (R52 to R54): where the registers stand, what a write and a read of each one does, and what a byte
write does. -/

namespace Sys2Proof.Machine

/-! ### Where the registers stand -/

theorem registerForm_iff (off : BitVec 18) :
    registerForm off = true ↔ off.toNat < 0x10000 ∧ off.toNat % 4 = 0 := by
  simp [registerForm]

/-- The registers stand side by side, four bytes each (R27 to R44). -/
theorem toNat_regOffset_getElem : ∀ j : Fin allRegs.length, (regOffset allRegs[j]).toNat = 4 * j.val := by decide

theorem toNat_regOffset_lt (r : Reg) : (regOffset r).toNat < 0x50 := by cases r <;> decide

/-- Below the reserved range every aligned offset is a register's. -/
theorem exists_regOffset_of_lt {off : BitVec 18} (ha : off.toNat % 4 = 0) (hlt : off.toNat < 0x50) :
    ∃ r, off = regOffset r := by
  have hj : off.toNat / 4 < allRegs.length := by
    have hlen : allRegs.length = 20 := rfl
    omega
  refine ⟨allRegs[off.toNat / 4], BitVec.eq_of_toNat_eq ?_⟩
  have hoff : (regOffset allRegs[off.toNat / 4]).toNat = 4 * (off.toNat / 4) :=
    toNat_regOffset_getElem ⟨off.toNat / 4, hj⟩
  omega

/-- No register stands in the reserved range (R45). -/
theorem regAt_eq_none_of_le {off : BitVec 18} (hle : 0x50 ≤ off.toNat) : regAt off = none := by
  cases hr : regAt off with
  | none => rfl
  | some r =>
    have hlt := toNat_regOffset_lt r
    rw [← regAt_eq_some hr] at hlt
    omega

/-! ### Register writes -/

/-- At a register WR is that register's write, unless the command that runs has it dropped. -/
theorem exec_wr_regOffset (s : State) (r : Reg) (v : Word) :
    exec (.wr (regOffset r) v) s =
      .next (if s.status.busy && droppedWhileBusy r then s.setHaz else s.writeReg r v) := by
  simp [exec, execWr, State.hostAccess, State.busWriteWord]

theorem exec_wr_of_idle {s : State} (hb : s.status.busy = false) (r : Reg) (v : Word) :
    exec (.wr (regOffset r) v) s = .next (s.writeReg r v) := by
  simp [exec_wr_regOffset, hb]

theorem exec_wr_of_busy {s : State} (hb : s.status.busy = true) {r : Reg} (hd : droppedWhileBusy r = true) (v : Word) :
    exec (.wr (regOffset r) v) s = .next s.setHaz := by
  simp [exec_wr_regOffset, hb, hd]

theorem exec_wr_of_not_dropped (s : State) {r : Reg} (hd : droppedWhileBusy r = false) (v : Word) :
    exec (.wr (regOffset r) v) s = .next (s.writeReg r v) := by
  simp [exec_wr_regOffset, hd]

theorem exec_wr_of_reserved (s : State) {off : BitVec 18} (hle : 0x50 ≤ off.toNat) (v : Word) :
    exec (.wr off v) s = .next s := by
  simp [exec, execWr, State.hostAccess, State.busWriteWord, regAt_eq_none_of_le hle]

/-- A register that takes no command's operand is read-only, `STATUS` apart. -/
theorem State.writeReg_of_readOnly (s : State) {r : Reg} (hs : r ≠ .status) (hd : droppedWhileBusy r = false)
    (v : Word) : s.writeReg r v = s := by
  cases r with
  | status => exact absurd rfl hs
  | ctrl => cases hd
  | inLen => cases hd
  | bcdArg => cases hd
  | _ => rfl

theorem readOnly_of_regOffset {r : Reg} (h : regOffset r = 0x00C#18 ∨ 0x14 ≤ (regOffset r).toNat) :
    r ≠ .status ∧ droppedWhileBusy r = false := by
  revert h; cases r <;> decide

theorem exec_wr_of_readOnly (s : State) {off : BitVec 18} (ha : off.toNat % 4 = 0)
    (h : off = 0x00C#18 ∨ 0x14 ≤ off.toNat ∧ off.toNat ≤ 0x4C) (v : Word) : exec (.wr off v) s = .next s := by
  have hlt : off.toNat < 0x50 := by
    rcases h with rfl | ⟨-, h⟩
    · decide
    · omega
  obtain ⟨r, rfl⟩ := exists_regOffset_of_lt ha hlt
  obtain ⟨hs, hd⟩ := readOnly_of_regOffset (h.imp_right And.left)
  rw [exec_wr_of_not_dropped s hd, s.writeReg_of_readOnly hs hd]

/-- Write 1 to clear, bit by bit (R52). -/
theorem State.acknowledge_eq_ite (s : State) (v : Word) :
    s.acknowledge v = { s with status :=
      { s.status with done := (if v.getLsbD 1 then false else s.status.done),
                      haz := (if v.getLsbD 2 then false else s.status.haz) } } := by
  have clear (b x : Bool) : (x && !b) = if b then false else x := by cases b <;> simp
  rw [State.acknowledge, clear, clear]

theorem State.writeReg_ctrl_of_start (s : State) {v : Word} (hv : wordStart v = true) :
    s.writeReg .ctrl v = s.start v := by
  simp [State.writeReg, hv]

theorem State.writeReg_ctrl_of_no_start (s : State) {v : Word} (hv : wordStart v = false) :
    s.writeReg .ctrl v = s.storeCtrl v := by
  simp [State.writeReg, hv]

/-- Settles O38: each clause is the rule of the register that stands at its offset. -/
theorem registerWrites : Obligations.RegisterWrites := by
  intro s off v _ ha
  refine ⟨fun hle => exec_wr_of_reserved s hle v, ?dropped, ?status, ?store, ?start, ?inLen, ?bcdArg,
    fun h => exec_wr_of_readOnly s ha h v⟩
  case dropped =>
    rintro hb (rfl | rfl | rfl)
    · exact exec_wr_of_busy (r := .ctrl) hb rfl v
    · exact exec_wr_of_busy (r := .inLen) hb rfl v
    · exact exec_wr_of_busy (r := .bcdArg) hb rfl v
  case status =>
    rintro rfl
    rw [← s.acknowledge_eq_ite v]
    exact exec_wr_of_not_dropped s (r := .status) rfl v
  case store =>
    rintro hb rfl hv
    exact (exec_wr_of_idle hb .ctrl v).trans (congrArg _ (s.writeReg_ctrl_of_no_start hv))
  case start =>
    rintro hb rfl hv
    exact ⟨s.start v, (exec_wr_of_idle hb .ctrl v).trans (congrArg _ (s.writeReg_ctrl_of_start hv)), rfl⟩
  case inLen =>
    rintro hb rfl
    exact exec_wr_of_idle hb .inLen v
  case bcdArg =>
    rintro hb rfl
    exact exec_wr_of_idle hb .bcdArg v

/-! ### Register reads -/

/-- At a register RD returns its value, or a draw where the command that runs leaves it unspecified. -/
theorem exec_rd_regOffset (s : State) (r : Reg) :
    exec (.rd (regOffset r)) s =
      .next (if s.status.busy && !readableWhileBusy r then s.returnDraw (regOffset r)
        else s.returnData (s.readReg r)) := by
  simp [exec, execRd, State.hostAccess, State.busReadWord]

theorem exec_rd_of_idle {s : State} (hb : s.status.busy = false) (r : Reg) :
    exec (.rd (regOffset r)) s = .next (s.returnData (s.readReg r)) := by
  simp [exec_rd_regOffset, hb]

theorem exec_rd_of_readable (s : State) {r : Reg} (hr : readableWhileBusy r = true) :
    exec (.rd (regOffset r)) s = .next (s.returnData (s.readReg r)) := by
  simp [exec_rd_regOffset, hr]

theorem exec_rd_of_not_readable {s : State} (hb : s.status.busy = true) {r : Reg} (hr : readableWhileBusy r = false) :
    exec (.rd (regOffset r)) s = .next (s.returnDraw (regOffset r)) := by
  simp [exec_rd_regOffset, hb, hr]

theorem exec_rd_of_reserved (s : State) {off : BitVec 18} (hform : registerForm off = true) (hle : 0x50 ≤ off.toNat) :
    exec (.rd off) s = .next (s.returnData 0#32) := by
  simp [exec, execRd, State.hostAccess, State.busReadWord, hform, regAt_eq_none_of_le hle]

theorem readableWhileBusy_of_regOffset {r : Reg}
    (h : regOffset r = 0x000#18 ∨ regOffset r = 0x004#18 ∨ regOffset r = 0x008#18 ∨ regOffset r = 0x010#18 ∨
      regOffset r = 0x04C#18) : readableWhileBusy r = true := by
  revert h; cases r <;> decide

theorem not_readableWhileBusy_of_regOffset {r : Reg}
    (h : regOffset r = 0x00C#18 ∨ 0x14 ≤ (regOffset r).toNat ∧ (regOffset r).toNat ≤ 0x48) :
    readableWhileBusy r = false := by
  revert h; cases r <;> decide

/-- Settles O39: by which register stands at the offset, and whether a running command leaves it specified. -/
theorem registerReads : Obligations.RegisterReads := by
  intro s off hlt ha
  refine ⟨fun hle => exec_rd_of_reserved s ((registerForm_iff off).2 ⟨hlt, ha⟩) hle, ?idle, ?readable, ?drawn⟩
  case idle =>
    rintro r rfl hb
    exact exec_rd_of_idle hb r
  case readable =>
    rintro r rfl _ h
    exact exec_rd_of_readable s (readableWhileBusy_of_regOffset h)
  case drawn =>
    intro hb h
    have hreg : off.toNat < 0x50 := by
      rcases h with rfl | ⟨-, h⟩
      · decide
      · omega
    obtain ⟨r, rfl⟩ := exists_regOffset_of_lt ha hreg
    exact exec_rd_of_not_readable hb (not_readableWhileBusy_of_regOffset h)

/-! ### Byte writes -/

/-- The `IN` window (R50). -/
theorem windowOf_eq_inp_iff (off : BitVec 18) :
    windowOf off = some .inp ↔ 0x10000 ≤ off.toNat ∧ off.toNat < 0x20000 := by
  have hhigh : off.extractLsb' 16 2 = 1#2 ↔ 0x10000 ≤ off.toNat ∧ off.toNat < 0x20000 := by
    rw [← BitVec.toNat_inj, BitVec.extractLsb'_toNat, Nat.shiftRight_eq_div_pow]
    have hoff := off.isLt
    simp only [BitVec.toNat_ofNat]
    omega
  rw [← hhigh, windowOf]
  split
  · next h => simp [h]
  · next h => split <;> simp [h]

/-- Only the `IN` window takes a byte write (R54, R56). -/
theorem State.hostAccess_write1_of_not_inp (s : State) {off : BitVec 18} (h : windowOf off ≠ some .inp) (b : Byte) :
    s.hostAccess (.write1 off b) = s := by
  cases hw : windowOf off with
  | none => simp [State.hostAccess, hw]
  | some win =>
    cases win with
    | inp => exact absurd hw h
    | out => simp [State.hostAccess, hw]

theorem exec_wrb (k : BitVec 16) (b : Byte) (s : State) :
    exec (.wrb k b) s = .next (s.busWriteIn k.toNat b) := by
  simp [exec, execWrb, State.hostAccess]

theorem State.busWriteIn_of_le (s : State) {k : Nat} (hk : Config.maxInLen ≤ k) (b : Byte) : s.busWriteIn k b = s := by
  simp [State.busWriteIn, hk]

theorem State.busWriteIn_of_busy {s : State} (hb : s.status.busy = true) {k : Nat} (hk : k < Config.maxInLen)
    (b : Byte) : s.busWriteIn k b = s.setHaz := by
  simp [State.busWriteIn, Nat.not_le.2 hk, hb]

theorem State.busWriteIn_of_idle {s : State} (hb : s.status.busy = false) {k : Nat} (hk : k < Config.maxInLen)
    (b : Byte) : s.busWriteIn k b = { s with inBuf := s.inBuf.write k b } := by
  simp [State.busWriteIn, Nat.not_le.2 hk, hb]

/-- Settles O41: the three outcomes of WRB, of which the stored byte is a read after a write, and the windows. -/
theorem byteWrites : Obligations.ByteWrites := by
  intro s k b
  refine ⟨fun hk => ?above, fun hk hb => ?busy, fun hk hb => ?idle, fun off hoff => ?otherWindow⟩
  case above => rw [exec_wrb, s.busWriteIn_of_le hk]
  case busy => rw [exec_wrb, State.busWriteIn_of_busy hb hk]; rfl
  case idle =>
    exact ⟨{ s with inBuf := s.inBuf.write k.toNat b },
      by rw [exec_wrb, State.busWriteIn_of_idle hb hk],
      Memory.read_write_same s.inBuf k.toNat b,
      fun j hj => Memory.read_write_other s.inBuf b hj, rfl⟩
  case otherWindow =>
    refine s.hostAccess_write1_of_not_inp (fun hw => ?_) b
    obtain ⟨-, hlt⟩ := (windowOf_eq_inp_iff off).1 hw
    omega

end Sys2Proof.Machine
end

section
/-! The unescaper (40_unescape.md R80 to R87): its tokens one by one, the equations, length law and round trip of
`unesc`, and the three outcomes of the UNESCAPE command. -/

namespace Sys2Proof.Machine

/-! ### Which token a window is (R70) -/

theorem tagEsc_ne_tagDelim : Config.tagEsc ≠ Config.tagDelim := by decide

/-- Each token by its window: the four rows of R70's table exclude each other. -/
theorem decodeToken_eq_iff (b0 : Byte) (b1 : Option Byte) :
    (decodeToken b0 b1 = .esc7d ↔ b0 = Config.esc ∧ b1 = some Config.tagEsc) ∧
    (decodeToken b0 b1 = .escDelim ↔ b0 = Config.esc ∧ b1 = some Config.tagDelim) ∧
    (decodeToken b0 b1 = .lit7d ↔ b0 = Config.esc ∧ b1 ≠ some Config.tagEsc ∧ b1 ≠ some Config.tagDelim) ∧
    (∀ b, decodeToken b0 b1 = .lit b ↔ b0 ≠ Config.esc ∧ b = b0) := by
  rcases decodeToken_cases b0 b1 with ⟨h0, h1, hk⟩ | ⟨h0, h1, hk⟩ | ⟨h0, h1, h2, hk⟩ | ⟨h0, hk⟩ <;> rw [hk]
  · simp [h0, h1, tagEsc_ne_tagDelim]
  · simp [h0, h1, tagEsc_ne_tagDelim.symm]
  · simp [h0, h1, h2]
  · simp [h0, eq_comm]

theorem decodeToken_esc_eq_lit7d {b1 : Option Byte} (h1 : b1 ≠ some Config.tagEsc) (h2 : b1 ≠ some Config.tagDelim) :
    decodeToken Config.esc b1 = .lit7d := by
  simp [decodeToken, h1, h2]

theorem decodeToken_of_ne_esc {b0 : Byte} (b1 : Option Byte) (h : b0 ≠ Config.esc) : decodeToken b0 b1 = .lit b0 := by
  simp [decodeToken, h]

/-! ### The window at a cursor inside the chunk -/

theorem State.fetchToken_eq_window_some {s : State} {b1 : Byte} (h0 : s.inByte s.cursorI.toNat = some Config.esc)
    (hi : s.cursorI.toNat + 1 < s.inLen.toNat) (h1 : s.inByte (s.cursorI.toNat + 1) = some b1) :
    s.fetchToken = .window Config.esc (some b1) := by
  have hlt : ¬ s.inLen.toNat ≤ s.cursorI.toNat := by omega
  simp [State.fetchToken, hlt, h0, hi, h1]

/-- The next byte is not read where no chunk byte is left, nor after a byte other than `ESC`. -/
theorem State.fetchToken_eq_window_none {s : State} {b0 : Byte} (hi : s.cursorI.toNat < s.inLen.toNat)
    (h0 : s.inByte s.cursorI.toNat = some b0) (hn : b0 = Config.esc → s.cursorI.toNat + 1 = s.inLen.toNat) :
    s.fetchToken = .window b0 none := by
  have hlt : ¬ s.inLen.toNat ≤ s.cursorI.toNat := by omega
  have hpair : ¬ (b0 = Config.esc ∧ s.cursorI.toNat + 1 < s.inLen.toNat) := fun ⟨he, hm⟩ => by
    have := hn he
    omega
  simp [State.fetchToken, hlt, h0, hpair]

/-! ### Running a token (R80 to R83) -/

theorem State.takeToken_tokenTaken (s : State) (k : Token) :
    TokenTaken s (s.takeToken k) (Token.emits k) (Token.consumes k) :=
  ⟨Memory.read_write_same _ _ _, fun _ hk => Memory.read_write_other _ _ hk, rfl⟩

theorem exec_token_taken {s : State} {b0 : Byte} {b1 : Option Byte} {k : Token} (hf : s.fetchToken = .window b0 b1)
    (hk : decodeToken b0 b1 = k) :
    ∃ t, exec k.toInstr s = .next t ∧ TokenTaken s t (Token.emits k) (Token.consumes k) := by
  refine ⟨s.takeToken k, ?_, s.takeToken_tokenTaken k⟩
  rw [exec_token, ← hk, runToken_taken hf]

theorem exec_token_not_taken {s : State} {b0 : Byte} {b1 : Option Byte} {k : Token} (hf : s.fetchToken = .window b0 b1)
    (hk : decodeToken b0 b1 ≠ k) : exec k.toInstr s = .next s := by
  simp [exec_token, runToken, hf, hk]

/-- Settles O16: each token by the window that stands at the cursor and the token that window is. -/
theorem tokensEmitAndAdvance : Obligations.TokensEmitAndAdvance := by
  refine ⟨decodeToken_eq_iff, ?_⟩
  rintro s _ _ rfl rfl hi
  refine ⟨fun h0 hm h1 => ?esc7d, fun h0 hm h1 => ?escDelim, fun h0 hend => ?lit7d, fun b h0 hb => ?lit,
    fun _ _ _ hf hk => exec_token_not_taken hf hk⟩
  case esc7d =>
    exact exec_token_taken (k := .esc7d) (State.fetchToken_eq_window_some h0 hm h1) rfl
  case escDelim =>
    exact exec_token_taken (k := .escDelim) (State.fetchToken_eq_window_some h0 hm h1) rfl
  case lit7d =>
    rcases hend with hlast | ⟨hm, b1, h1, hne1, hne2⟩
    · exact exec_token_taken (k := .lit7d) (State.fetchToken_eq_window_none hi h0 fun _ => hlast) rfl
    · exact exec_token_taken (k := .lit7d) (State.fetchToken_eq_window_some h0 hm h1)
        (decodeToken_esc_eq_lit7d (mt Option.some.inj hne1) (mt Option.some.inj hne2))
  case lit =>
    exact exec_token_taken (k := .lit b) (State.fetchToken_eq_window_none hi h0 fun he => absurd he hb)
      (decodeToken_of_ne_esc none hb)

/-! ### The length law of `unesc` (R86) -/

/-- Each two-byte token is one byte of the chunk that is not in the frame. -/
theorem length_unesc_add_pairTokens (bs : List Byte) : (unesc bs).length + pairTokens bs = bs.length := by
  induction bs using unesc.induct with
  | case1 => rfl
  | case2 b => rfl
  | case3 b0 b1 t hpair ih =>
    obtain ⟨rfl, rfl⟩ := hpair
    show (unesc t).length + 1 + (pairTokens t + 1) = t.length + 2
    omega
  | case4 b0 b1 t _ hpair ih =>
    obtain ⟨rfl, rfl⟩ := hpair
    show (unesc t).length + 1 + (pairTokens t + 1) = t.length + 2
    omega
  | case5 b0 b1 t hne1 hne2 ih =>
    have hpair : ¬ (b0 = 0x7D#8 ∧ (b1 = 0x01#8 ∨ b1 = 0x02#8)) := by tauto
    simp only [unesc, pairTokens, if_neg hne1, if_neg hne2, if_neg hpair, List.length_cons] at ih ⊢
    omega

theorem two_mul_pairTokens_le_length (bs : List Byte) : 2 * pairTokens bs ≤ bs.length := by
  induction bs using pairTokens.induct with
  | case1 => simp [pairTokens]
  | case2 b => simp [pairTokens]
  | case3 b0 b1 t hpair ih =>
    simp only [pairTokens, if_pos hpair, List.length_cons]
    omega
  | case4 b0 b1 t hne ih =>
    simp only [pairTokens, if_neg hne, List.length_cons] at ih ⊢
    omega

/-! ### The round trip of `stuff` and `unesc` (R87) -/

/-- Neither byte that `stuff` writes after a `7D` is read as the head of another token, and no other byte it writes
is a `7D`. -/
theorem unesc_stuff (x : List Byte) : unesc (stuff x) = x := by
  induction x with
  | nil => rfl
  | cons b t ih =>
    by_cases hesc : b = 0x7D#8
    · simp [stuff, unesc, hesc, ih]
    · by_cases hdelim : b = 0x7E#8
      · simp [stuff, unesc, hdelim, ih, Config.delim]
      · simp [stuff, hesc, hdelim, unesc_cons_of_ne, ih]

/-! ### The UNESCAPE command (R85) -/

/-- The mask of the command rows keeps START and `OP` (R68). -/
theorem wordStart_and_commandMask (v : Word) : wordStart (v &&& 0x0000010F#32) = wordStart v := by
  simp [wordStart]

theorem wordOp_and_commandMask (v : Word) : wordOp (v &&& 0x0000010F#32) = wordOp v := by
  have hlow : (0x0000010F#32).extractLsb' 0 4 = BitVec.allOnes 4 := by decide
  rw [wordOp, BitVec.extractLsb'_and, hlow, BitVec.and_allOnes, wordOp]

/-- A word with the START and `OP` bits of UNESCAPE's row is UNESCAPE. -/
theorem decodeCtrl_eq_unescape_of_masked {v : Word} (h : v &&& 0x0000010F#32 = 0x00000101#32) :
    decodeCtrl v = .unescape := by
  have hstart : wordStart v = true := by rw [← wordStart_and_commandMask, h]; decide
  have hop : wordOp v = 1#4 := by rw [← wordOp_and_commandMask, h]; decide
  simp [decodeCtrl, hstart, hop, decodeOp]

theorem exec_unescape_of_ready {s : State} (h : s.ChunkReady) :
    exec .unescape s = .next s.unescapeStep.complete := by
  obtain ⟨hfits, hwritten⟩ := h.checks
  simp [exec, execUnescape, hfits, hwritten]

theorem exec_unescape_of_tooLong {s : State} (h : Config.maxInLen < s.inLen.toNat) :
    exec .unescape s = .next s.raiseBounds := by
  simp [exec, execUnescape, s.chunkTooLong_iff.2 h]

theorem exec_unescape_of_unwritten {s : State} (hfits : s.inLen.toNat ≤ Config.maxInLen)
    (h : ∃ k, k < s.inLen.toNat ∧ s.inByte k = none) : exec .unescape s = .fault .unwrittenInput := by
  obtain ⟨k, hk, hnone⟩ := h
  have hlong : ¬ s.chunkTooLong = true := fun hc => absurd (s.chunkTooLong_iff.1 hc) (by omega)
  have hwritten : ¬ s.chunkWritten = true := fun hw => by
    simpa [hnone] using s.chunkWritten_iff.1 hw k hk
  simp [exec, execUnescape, hlong, hwritten]

/-- Settles O12: the ready chunk by what the UNESCAPE step leaves, the others by the command's two checks. -/
theorem unescapeWritesTheUnescapedChunk : Obligations.UnescapeWritesTheUnescapedChunk := by
  refine ⟨fun v hv => congrArg Except.ok (decodeCtrl_eq_unescape_of_masked hv), fun s =>
    ⟨fun hready => ?ready, exec_unescape_of_tooLong, exec_unescape_of_unwritten⟩⟩
  case ready =>
    obtain ⟨hlen, hbytes, habove, hframe⟩ := State.unescapeStep_spec hready
    exact ⟨s.unescapeStep.complete, exec_unescape_of_ready hready, hlen, hbytes, habove,
      congrArg State.complete hframe⟩

/-- The length of a ready chunk is its frame's and one byte for each two-byte token. -/
theorem State.unescapeStep_outLen_add_pairTokens {s : State} (h : s.ChunkReady) :
    s.unescapeStep.outLen.toNat + pairTokens s.chunk = s.inLen.toNat := by
  obtain ⟨hlen, -, -, -⟩ := State.unescapeStep_spec h
  rw [hlen, length_unesc_add_pairTokens, s.length_chunk]

/-- Settles O13: by the length law of `unesc`, and because a two-byte token takes two bytes of the chunk. -/
theorem unescapeLengthLaw : Obligations.UnescapeLengthLaw := by
  intro s hready
  have hlen := State.unescapeStep_outLen_add_pairTokens hready
  have hpairs := two_mul_pairTokens_le_length s.chunk
  rw [s.length_chunk] at hpairs
  refine ⟨s.unescapeStep.complete, exec_unescape_of_ready hready, hlen, ?_⟩
  show s.unescapeStep.outLen.toNat ≤ _ ∧ _ ≤ 2 * s.unescapeStep.outLen.toNat ∧ (s.unescapeStep.outLen = _ ↔ _)
  rw [← BitVec.toNat_inj]
  omega

theorem State.frame_unescapeStep {s : State} (h : s.ChunkReady) : s.unescapeStep.frame = unesc s.chunk := by
  obtain ⟨hlen, hbytes, -, -⟩ := State.unescapeStep_spec h
  refine List.ext_getElem (by simp [State.frame, State.outBytes, hlen]) fun k hk hk' => ?_
  have hread := hbytes k (hlen ▸ hk')
  simp [State.frame, State.outBytes, State.outByte, hread, hk']

/-- Settles O14: the frame of a ready chunk is its `unesc`, which undoes `stuff`. -/
theorem unescapeUndoesStuffing : Obligations.UnescapeUndoesStuffing := by
  refine ⟨unesc_stuff, fun s x hready hx => ?_, by decide, by decide⟩
  refine ⟨s.unescapeStep.complete, exec_unescape_of_ready hready, ?_⟩
  calc s.unescapeStep.complete.frame
      _ = s.unescapeStep.frame := rfl
      _ = unesc s.chunk := State.frame_unescapeStep hready
      _ = x := by rw [hx, unesc_stuff]

end Sys2Proof.Machine
end

section
/-! Packed BCD (41_bcd.md R89 to R93): the digits of a byte string as a base-10 numeral, the bytes of a big-endian read,
and the two outcomes of the BCD command. -/

namespace Sys2Proof.Machine

/-! ### Which control words are which command (R68) -/

/-- A word that the mask of a command's row takes to that row's match is the command. -/
theorem decodeCtrl_eq_decodeOp_of_masked {v : Word} {op : BitVec 4}
    (h : v &&& 0x0000010F#32 = commandWord op true false) : decodeCtrl v = decodeOp op := by
  have hstart : wordStart v = true := by rw [← wordStart_and_commandMask, h, wordStart_commandWord]
  have hop : wordOp v = op := by rw [← wordOp_and_commandMask, h, wordOp_commandWord]
  simp [decodeCtrl, hstart, hop]

/-! ### Digit sequences (R89) -/

@[simp] theorem digits_nil : digits [] = [] := rfl

@[simp] theorem digits_cons (b : Byte) (bs : List Byte) :
    digits (b :: bs) = b.toNat / 16 :: b.toNat % 16 :: digits bs := by
  simp [digits, byteDigits_eq]

theorem length_digits (bs : List Byte) : (digits bs).length = 2 * bs.length := by
  induction bs with
  | nil => rfl
  | cons b bs ih =>
    simp only [digits_cons, List.length_cons, ih]
    omega

theorem le_nine_of_mem_digits {bs : List Byte} (hv : bcdValid bs = true) : ∀ d ∈ digits bs, d ≤ 9 := by
  simpa [bcdValid] using hv

@[simp] theorem State.length_outBytes (s : State) (f c : Nat) : (s.outBytes f c).length = c := by
  simp [State.outBytes]

@[simp] theorem State.outBytes_one (s : State) (f : Nat) : s.outBytes f 1 = [s.outByte f] := rfl

theorem State.bcdValid_outBytes_iff (s : State) (f c : Nat) :
    bcdValid (s.outBytes f c) = true ↔ ∀ j, j < c → decimalByte (s.outByte (f + j)) := by
  simp only [bcdValid_iff, State.mem_outBytes, forall_exists_index, and_imp]
  exact ⟨fun h j hj => h _ j hj rfl, fun h _ j hj hb => hb ▸ h j hj⟩

/-! ### The decimal value (R91) -/

/-- `decimalSum` has the most significant digit first, Mathlib's `Nat.ofDigits` the least. -/
theorem decimalSum_eq_ofDigits (es : List Nat) : decimalSum es = Nat.ofDigits 10 es.reverse := by
  induction es with
  | nil => rfl
  | cons e es ih =>
    simp only [decimalSum, ih, List.reverse_cons, Nat.ofDigits_append, Nat.ofDigits_singleton, List.length_reverse]
    ring

theorem bcdValue_eq_decimalSum (bs : List Byte) : bcdValue bs = decimalSum (digits bs) := by
  rw [decimalSum_eq_ofDigits, Nat.ofDigits_eq_foldr, List.foldr_reverse, bcdValue]
  congr 1
  funext acc d
  simp [Nat.add_comm, Nat.mul_comm]

/-- A numeral of `2c` decimal digits is below `10^(2c)`. -/
theorem decimalSum_digits_lt {bs : List Byte} (hv : bcdValid bs = true) :
    decimalSum (digits bs) < 10 ^ (2 * bs.length) := by
  rw [decimalSum_eq_ofDigits, ← length_digits, ← List.length_reverse]
  refine Nat.ofDigits_lt_base_pow_length (by decide) fun d hd => ?_
  exact Nat.lt_succ_of_le (le_nine_of_mem_digits hv d (List.mem_reverse.1 hd))

theorem decimalSum_digits_le {bs : List Byte} (hv : bcdValid bs = true) (hlen : bs.length ≤ 8) :
    decimalSum (digits bs) ≤ 10 ^ 16 - 1 := by
  have hlt := decimalSum_digits_lt hv
  have hpow : 10 ^ (2 * bs.length) ≤ 10 ^ 16 := Nat.pow_le_pow_right (by decide) (by omega)
  omega

/-! ### The bytes of a big-endian read (R57) -/

theorem memRead_lt (f : Nat → Byte) (k m : Nat) : memRead f k m < 256 ^ m := by
  induction m with
  | zero => simp [memRead]
  | succ m ih =>
    have hb := (f (k + m)).isLt
    rw [memRead_succ, Nat.pow_succ]
    omega

/-- The byte at the lowest index is the most significant one. -/
theorem memRead_div_mod (f : Nat → Byte) (k : Nat) {m j : Nat} (hj : j < m) :
    memRead f k m / 256 ^ (m - 1 - j) % 256 = (f (k + j)).toNat := by
  induction m with
  | zero => omega
  | succ m ih =>
    have hb := (f (k + m)).isLt
    rw [memRead_succ]
    rcases Nat.lt_succ_iff_lt_or_eq.1 hj with hlt | rfl
    · have hexp : m + 1 - 1 - j = m - 1 - j + 1 := by omega
      have hdrop : (memRead f k m * 256 + (f (k + m)).toNat) / 256 = memRead f k m := by omega
      rw [hexp, Nat.pow_succ', ← Nat.div_div_eq_div_mul, hdrop, ih hlt]
    · simp only [Nat.add_sub_cancel, Nat.sub_self, Nat.pow_zero, Nat.div_one]
      omega

/-! ### The result registers (R92) -/

section bcdResultFields

variable (raw : Nat) (bs : List Byte)

@[simp] theorem bcdResultOf_ok : (bcdResultOf raw bs).ok = bcdValid bs := rfl

/-- The decimal value fits in the 64 bits of the register, so nothing of it is lost. -/
theorem toNat_bcdResultOf_val (hlen : bs.length ≤ 8) :
    (bcdResultOf raw bs).val.toNat = if bcdValid bs then decimalSum (digits bs) else 0 := by
  rw [bcdResultOf, ← bcdValue_eq_decimalSum]
  split
  · next hv =>
    have hle := decimalSum_digits_le hv hlen
    rw [bcdValue_eq_decimalSum, BitVec.toNat_ofNat]
    omega
  · rfl

theorem toNat_bcdResultOf_val_le (hlen : bs.length ≤ 8) : (bcdResultOf raw bs).val.toNat ≤ 10 ^ 16 - 1 := by
  rw [toNat_bcdResultOf_val raw bs hlen]
  split
  · next hv => exact decimalSum_digits_le hv hlen
  · omega

end bcdResultFields

/-- At most eight bytes fit in the 64 bits of the digit register. -/
theorem toNat_bcdResultOf_dig (f : Nat → Byte) (k : Nat) {c : Nat} (hc : c ≤ 8) (bs : List Byte) :
    (bcdResultOf (memRead f k c) bs).dig.toNat = memRead f k c := by
  have hlt := memRead_lt f k c
  have hpow : 256 ^ c ≤ 256 ^ 8 := Nat.pow_le_pow_right (by decide) hc
  rw [bcdResultOf, BitVec.toNat_ofNat]
  omega

theorem extractLsb'_bcdResultOf_dig (f : Nat → Byte) (k : Nat) {c j : Nat} (hc : c ≤ 8) (hj : j < c)
    (bs : List Byte) :
    (bcdResultOf (memRead f k c) bs).dig.extractLsb' (8 * (c - 1 - j)) 8 = f (k + j) := by
  apply BitVec.eq_of_toNat_eq
  rw [BitVec.extractLsb'_toNat, toNat_bcdResultOf_dig f k hc, Nat.shiftRight_eq_div_pow, Nat.pow_mul]
  exact memRead_div_mod f k hj

/-- A register pair holds the two halves of its 64-bit value. -/
theorem extractLsb'_high_append_low (x : BitVec 64) :
    (x.extractLsb' 32 32 ++ x.extractLsb' 0 32 : BitVec 64) = x := by
  rw [BitVec.extractLsb'_append_extractLsb'_eq_extractLsb' (by rfl)]
  exact BitVec.extractLsb'_eq_self

/-! ### The BCD command (R92) -/

section bcdStepFields

variable (s : State)

theorem State.bcdStep_bcd : s.bcdStep.bcd =
    bcdResultOf (memRead s.outByte s.bcdOff.toNat s.bcdCnt.toNat) (s.outBytes s.bcdOff.toNat s.bcdCnt.toNat) := rfl

theorem State.bcdStep_err : s.bcdStep.status.err =
    if bcdValid (s.outBytes s.bcdOff.toNat s.bcdCnt.toNat) then errNone else errInvalidBcdDigit := rfl

/-- The command writes its result registers, `ERR` and `CAUSE`, and completes. -/
theorem State.bcdStep_complete_eq : s.bcdStep.complete =
    { s with bcd := s.bcdStep.bcd, status := s.status.completed s.bcdStep.status.err causeNone } := rfl

theorem State.raiseBounds_eq :
    s.raiseBounds = { s with status := s.status.completed errBounds causeNone } := rfl

end bcdStepFields

theorem exec_bcd_of_inBounds {s : State} (hc : s.bcdCnt.toNat ≤ 8)
    (hf : s.bcdOff.toNat + s.bcdCnt.toNat ≤ s.outLen.toNat) : exec .bcd s = .next s.bcdStep.complete := by
  have hin : ¬ s.bcdOutOfBounds = true := by
    rw [State.bcdOutOfBounds_iff]
    omega
  exact if_neg hin

theorem exec_bcd_of_outOfBounds {s : State}
    (h : 8 < s.bcdCnt.toNat ∨ s.outLen.toNat < s.bcdOff.toNat + s.bcdCnt.toNat) :
    exec .bcd s = .next s.raiseBounds :=
  if_pos (s.bcdOutOfBounds_iff.2 h)

/-- Settles O25: the bounds check, then the registers one by one: the digits are the bytes of the read, and the value
and the error follow the validity of the field. -/
theorem bcdConvertsTheField : Obligations.BcdConvertsTheField := by
  refine ⟨fun v hv => congrArg Except.ok (decodeCtrl_eq_decodeOp_of_masked (op := 4#4) hv), ?_⟩
  rintro s _ _ rfl rfl
  refine ⟨fun hc hf => ?inBounds, exec_bcd_of_outOfBounds⟩
  case inBounds =>
    have hlen := (s.length_outBytes s.bcdOff.toNat s.bcdCnt.toNat).trans_le hc
    refine ⟨s.bcdStep.complete, exec_bcd_of_inBounds hc hf, s.bcdStep_complete_eq, ?_⟩
    simp only [State.complete_bcd, State.complete_status, State.bcdStep_bcd, State.bcdStep_err, bcdResultOf_ok,
      ← State.bcdValid_outBytes_iff]
    refine ⟨fun j hj => extractLsb'_bcdResultOf_dig _ _ hc hj _, ?dig, fun hv => ?valid, fun hv => ?invalid⟩
    case dig =>
      rw [toNat_bcdResultOf_dig _ _ hc]
      exact memRead_lt _ _ _
    case valid => simp [toNat_bcdResultOf_val _ _ hlen, hv]
    case invalid => simp [bcdResultOf, hv]

/-- Settles O27: the two registers are the halves of `VAL`, whose value and bound are those of the result. -/
theorem bcdValueRegisters : Obligations.BcdValueRegisters := by
  rintro s _ _ rfl rfl hc hf
  have hlen := (s.length_outBytes s.bcdOff.toNat s.bcdCnt.toNat).trans_le hc
  refine ⟨s.bcdStep.complete, exec_bcd_of_inBounds hc hf, ?_⟩
  simp only [State.readReg, extractLsb'_high_append_low, State.complete_bcd, State.bcdStep_bcd, bcdResultOf_ok]
  exact ⟨toNat_bcdResultOf_val _ _ hlen, toNat_bcdResultOf_val_le _ _ hlen⟩

/-! ### One byte (R93) -/

theorem bcdValid_singleton_iff (b : Byte) : bcdValid [b] = true ↔ decimalByte b := by
  simp [bcdValid_iff]

/-- A BCD command over one byte inside the frame, by what the byte is. -/
theorem exec_bcd_of_one {s : State} (hc : s.bcdCnt = 1#4) (hf : s.bcdOff.toNat < s.outLen.toNat) :
    ∃ t, exec .bcd s = .next t ∧ t.bcd.ok = bcdValid [s.outByte s.bcdOff.toNat] ∧
      t.bcd.val.toNat = (if bcdValid [s.outByte s.bcdOff.toNat] then
        decimalSum (digits [s.outByte s.bcdOff.toNat]) else 0) ∧
      t.status.err = if bcdValid [s.outByte s.bcdOff.toNat] then errNone else errInvalidBcdDigit := by
  have hone : s.bcdCnt.toNat = 1 := by rw [hc]; rfl
  have hexec : exec .bcd s = .next s.bcdStep.complete := exec_bcd_of_inBounds (by omega) (by omega)
  refine ⟨s.bcdStep.complete, hexec, ?_⟩
  simp only [State.complete_bcd, State.complete_status, State.bcdStep_bcd, State.bcdStep_err, hone,
    State.outBytes_one, bcdResultOf_ok, true_and, and_true]
  exact toNat_bcdResultOf_val _ _ (by simp)

/-- The byte of two digits spells them, high nibble first. -/
theorem digits_of_toNat_eq {b : Byte} {d1 d2 : Nat} (h2 : d2 ≤ 9) (hb : b.toNat = 16 * d1 + d2) :
    digits [b] = [d1, d2] := by
  have hhigh : b.toNat / 16 = d1 := by omega
  have hlow : b.toNat % 16 = d2 := by omega
  simp [hhigh, hlow]

/-- The numbers below `k m` in `m` rows of `k`. -/
theorem range_mul_eq_flatMap_rows (k m : Nat) :
    List.range (k * m) = (List.range m).flatMap fun high => (List.range k).map fun low => k * high + low := by
  induction m with
  | zero => rfl
  | succ m ih => rw [Nat.mul_succ, List.range_add, ih, List.range_succ, List.flatMap_append, List.flatMap_singleton]

/-- Ten rows of the high nibble hold ten valid bytes each, the other six none. -/
theorem length_filter_bcdValid :
    ((List.range 256).filter (fun n => bcdValid [BitVec.ofNat 8 n])).length = 100 := by
  rw [show 256 = 16 * 16 from rfl, range_mul_eq_flatMap_rows, List.filter_flatMap, List.length_flatMap]
  decide

/-- Settles O28: the command's outcome by whether both nibbles of the byte are digits, and the count of such bytes. -/
theorem bcdByteLaws : Obligations.BcdByteLaws := by
  refine ⟨fun s d1 d2 h1 h2 hc hf hb => ?digits, fun s hc hf hbad => ?badNibble, length_filter_bcdValid⟩
  case digits =>
    obtain ⟨t, hexec, hok, hval, -⟩ := exec_bcd_of_one hc hf
    have hdigits := digits_of_toNat_eq h2 hb
    have hv : bcdValid [s.outByte s.bcdOff.toNat] = true := by simp [bcdValid, hdigits, h1, h2]
    refine ⟨t, hexec, hok.trans hv, ?_, ?_⟩
    · simp [hval, hv, hdigits, decimalSum, Nat.mul_comm]
    · simp [digitString, hv, hdigits]
  case badNibble =>
    obtain ⟨t, hexec, -, -, herr⟩ := exec_bcd_of_one hc hf
    have hv : ¬ bcdValid [s.outByte s.bcdOff.toNat] = true := by
      rw [bcdValid_singleton_iff, decimalByte]
      omega
    exact ⟨t, hexec, herr.trans (if_neg hv)⟩

end Sys2Proof.Machine
end

section
/-! The envelope (42_envelope.md R94 to R108): what the ENVELOPE command writes, each envelope register and flag from the
bytes of the frame, and the laws of the checksum. -/

namespace Sys2Proof.Machine

/-! ### The command (R94) -/

/-- ENVELOPE has no check that could end it early. -/
theorem exec_envelope (s : State) : exec .envelope s = .next s.envelopeStep.complete := rfl

section envelopeStepFields

variable (s : State)

@[simp] theorem State.envelopeStep_env : s.envelopeStep.env = envelopeOf s.outLen.toNat s.outByte := rfl

@[simp] theorem State.envelopeStep_cause : s.envelopeStep.status.cause = causeOf s.envelopeStep.env.flags := rfl

@[simp] theorem State.envelopeStep_err : s.envelopeStep.status.err = envelopeErr s.envelopeStep.env.flags := rfl

/-- The command writes the envelope registers, `ERR` and `CAUSE`, and completes. -/
theorem State.envelopeStep_complete_eq : s.envelopeStep.complete =
    { s with env := s.envelopeStep.env,
             status := s.status.completed s.envelopeStep.status.err s.envelopeStep.status.cause } := rfl

end envelopeStepFields

/-! ### The flags (R95, R100 to R104) -/

section flags

variable (n : Nat) (o : Nat → Byte)

theorem envFlagsOf_startOk : (envFlagsOf n o).startOk = true ↔ 15 ≤ n ∧ o 0 = 0x7E#8 := by
  rw [← envFlagsOf_lenOk n o]
  simp [envFlagsOf, Config.delim]

theorem envFlagsOf_endOk : (envFlagsOf n o).endOk = true ↔ 15 ≤ n ∧ o (n - 1) = 0x7E#8 := by
  rw [← envFlagsOf_lenOk n o]
  simp [envFlagsOf, Config.delim]

theorem envFlagsOf_cksOk : (envFlagsOf n o).cksOk = true ↔ 15 ≤ n ∧ checksum n o = o (n - 2) := by
  rw [← envFlagsOf_lenOk n o]
  simp [envFlagsOf]

theorem envFlagsOf_isValid : (envFlagsOf n o).isValid =
    ((envFlagsOf n o).lenOk && (envFlagsOf n o).startOk && (envFlagsOf n o).endOk && (envFlagsOf n o).cksOk) := rfl

theorem envFlagsOf_devBcdOk :
    (envFlagsOf n o).devBcdOk = true ↔ 13 ≤ n ∧ bcdValid ((List.range 6).map fun j => o (5 + j)) = true := by
  rw [← envFlagsOf_loaded n o]
  simp [envFlagsOf, deviceBcdValid]

end flags

/-- A frame too short for a trailer has no marker and no checksum (R101). -/
theorem envFlagsOf_of_lt_fifteen {n : Nat} (o : Nat → Byte) (h : n < 15) :
    (envFlagsOf n o).lenOk = false ∧ (envFlagsOf n o).startOk = false ∧ (envFlagsOf n o).endOk = false ∧
      (envFlagsOf n o).cksOk = false := by
  simp only [← Bool.not_eq_true, envFlagsOf_lenOk, envFlagsOf_startOk, envFlagsOf_endOk, envFlagsOf_cksOk]
  omega

/-! ### `CAUSE` and `ERR` (R105, R107) -/

/-- The codes of `cause()` are those the order of R105 asks for. -/
theorem causeTold_of_cause_eq {t : State} (h : t.status.cause = causeOf t.env.flags) : CauseTold t := by
  rw [CauseTold, h]
  refine ⟨fun hv => ?valid, fun hv hlen => ?short, fun hv hlen hmark => ?framing, fun hv hlen hs he => ?checksum⟩
  case valid => simp [causeOf, hv]
  case short => simp [causeOf, hv, hlen]
  case framing => rcases hmark with hs | he <;> simp [causeOf, *]
  case checksum => simp [causeOf, hv, hlen, hs, he]

theorem State.causeTold_envelopeStep_complete (s : State) : CauseTold s.envelopeStep.complete :=
  causeTold_of_cause_eq s.envelopeStep_cause

theorem envelopeErr_of_badDigit {f : EnvFlags} (h : f.loaded = true ∧ f.devBcdOk = false) :
    envelopeErr f = errInvalidBcdDigit := by
  simp [envelopeErr, h]

theorem envelopeErr_of_no_badDigit {f : EnvFlags} (h : ¬(f.loaded = true ∧ f.devBcdOk = false)) :
    envelopeErr f = errNone :=
  if_neg (by simpa using h)

/-- The verdict keeps what the ENVELOPE step reported but for `ERR` (R110). -/
theorem State.verdict_env_cause (s : State) :
    s.verdict.env = s.env ∧ s.verdict.status.cause = s.status.cause := by
  unfold State.verdict
  split <;> simp

theorem exec_decodeFrame_of_ready {s : State} (h : s.ChunkReady) :
    exec .decodeFrame s = .next s.unescapeStep.envelopeStep.verdict := by
  obtain ⟨hfits, hwritten⟩ := h.checks
  simp [exec, execDecodeFrame, hfits, hwritten]

/-- Settles O18: from the frame of the ENVELOPE step, and because the flags it leaves give both codes. The verdict of
DECODE_FRAME keeps flags and cause. -/
theorem envelopeReportsCauseAndError : Obligations.EnvelopeReportsCauseAndError := by
  refine fun s => ⟨⟨s.envelopeStep.complete, exec_envelope s, s.envelopeStep_complete_eq,
    s.causeTold_envelopeStep_complete, envelopeErr_of_badDigit, envelopeErr_of_no_badDigit⟩, fun hready => ?decodeFrame⟩
  case decodeFrame =>
    obtain ⟨henv, hcause⟩ := s.unescapeStep.envelopeStep.verdict_env_cause
    refine ⟨_, exec_decodeFrame_of_ready hready, causeTold_of_cause_eq ?_⟩
    rw [henv, hcause, State.envelopeStep_cause]

/-- Settles O19: a frame of fewer than 13 bytes leaves the registers zero, and cause and error follow the zero
flags. -/
theorem envelopeOfAShortBufferIsZero : Obligations.EnvelopeOfAShortBufferIsZero := by
  refine fun s => ⟨s.envelopeStep.complete, exec_envelope s, ?loaded, fun hshort => ?zero⟩
  case loaded => simp [envFlagsOf_loaded]
  case zero =>
    have henv : s.envelopeStep.env = Envelope.zero := envelopeOf_short s.outByte hshort
    refine ⟨henv, s.envelopeStep_cause.trans ?_, s.envelopeStep_err.trans ?_⟩ <;> rw [henv] <;> rfl

/-! ### The header (R96 to R100) -/

/-- A loaded header holds what `withHeader` writes, whether or not a trailer follows. -/
theorem envelopeOf_eq_withHeader {n : Nat} (o : Nat → Byte) (h : 13 ≤ n) :
    envelopeOf n o = withHeader o (envelopeOf n o) := by
  rcases lt_or_ge n 15 with hn | hn
  · rw [envelopeOf_header o h hn]; rfl
  · rw [envelopeOf_full o hn]; rfl

section header

variable {n : Nat} (o : Nat → Byte) (h : 13 ≤ n)

include h

theorem envelopeOf_msgType : (envelopeOf n o).msgType = o 1 ++ o 2 :=
  (congrArg Envelope.msgType (envelopeOf_eq_withHeader o h)).trans (ofNat_memRead_two o 1)

theorem envelopeOf_prop : (envelopeOf n o).prop = o 3 ++ o 4 :=
  (congrArg Envelope.prop (envelopeOf_eq_withHeader o h)).trans (ofNat_memRead_two o 3)

theorem envelopeOf_devHi : (envelopeOf n o).devHi = o 5 ++ o 6 :=
  (congrArg Envelope.devHi (envelopeOf_eq_withHeader o h)).trans (ofNat_memRead_two o 5)

theorem envelopeOf_devLo : (envelopeOf n o).devLo = o 7 ++ o 8 ++ o 9 ++ o 10 :=
  (congrArg Envelope.devLo (envelopeOf_eq_withHeader o h)).trans (ofNat_memRead_four o 7)

theorem envelopeOf_msgCounter : (envelopeOf n o).msgCounter = o 11 ++ o 12 :=
  (congrArg Envelope.msgCounter (envelopeOf_eq_withHeader o h)).trans (ofNat_memRead_two o 11)

/-- The decoded properties are those of the property word (R73, R99). -/
theorem envelopeOf_propDec :
    (envelopeOf n o).msgLen = propLength (envelopeOf n o).prop ∧
      (envelopeOf n o).encRaw = propEncRaw (envelopeOf n o).prop ∧
      (envelopeOf n o).encMode = encMode (envelopeOf n o).encRaw := by
  rw [envelopeOf_eq_withHeader o h]
  exact ⟨rfl, rfl, rfl⟩

end header

theorem encMode_of_two_le : ∀ e : BitVec 3, 2 ≤ e.toNat → encMode e = 2#2 := by decide

/-- The device number of a loaded header, as a field of six bytes of the frame. -/
theorem State.devBcdOk_iff_bcdValid {s : State} {n : Nat} (h : 13 ≤ n) :
    (envFlagsOf n s.outByte).devBcdOk = true ↔ bcdValid (s.outBytes 5 6) = true :=
  (envFlagsOf_devBcdOk n s.outByte).trans (and_iff_right h)

theorem isSome_digitString (bs : List Byte) : (digitString bs).isSome = bcdValid bs := by
  cases h : bcdValid bs <;> simp [digitString, h]

/-- Settles O20: each field from its bytes, the device number's validity from that of a field of six bytes. -/
theorem envelopeExtractsTheHeader : Obligations.EnvelopeExtractsTheHeader := by
  rintro s _ rfl hn
  obtain ⟨hmsgLen, hencRaw, hencMode⟩ := envelopeOf_propDec s.outByte hn
  refine ⟨s.envelopeStep.complete, exec_envelope s, ?_⟩
  simp only [State.complete_env, State.complete_status, State.envelopeStep_env, State.envelopeStep_err,
    envelopeOf_flags]
  refine ⟨envelopeOf_msgType _ hn, envelopeOf_prop _ hn, envelopeOf_msgCounter _ hn, hmsgLen, hencRaw,
    fun h0 => ?_, fun h1 => ?_, fun h2 => hencMode.trans (encMode_of_two_le _ h2), envelopeOf_devHi _ hn,
    envelopeOf_devLo _ hn, ?nibbles, ?string, ?err, envFlagsOf_isValid _ _⟩
  · rw [hencMode, h0]; rfl
  · rw [hencMode, h1]; rfl
  case nibbles =>
    rw [State.devBcdOk_iff_bcdValid hn, State.bcdValid_outBytes_iff]
    refine ⟨fun h k hk hk' => ?_, fun h j hj => h (5 + j) (by omega) (by omega)⟩
    have hbyte := h (k - 5) (by omega)
    rwa [show 5 + (k - 5) = k by omega] at hbyte
  case string => rw [State.devBcdOk_iff_bcdValid hn, isSome_digitString]
  case err =>
    have hloaded := (envFlagsOf_loaded _ s.outByte).2 hn
    split
    · next hdev => exact envelopeErr_of_no_badDigit (by simp [hdev])
    · next hdev => exact envelopeErr_of_badDigit ⟨hloaded, Bool.not_eq_true _ ▸ hdev⟩

/-! ### The trailer (R101 to R104, R106) -/

/-- A frame with a trailer holds what `withTrailer` writes. -/
theorem envelopeOf_eq_withTrailer {n : Nat} (o : Nat → Byte) (h : 15 ≤ n) :
    envelopeOf n o = withTrailer n o (envelopeOf n o) := by
  rw [envelopeOf_full o h]; rfl

theorem envelopeOf_cksCalc {n : Nat} (o : Nat → Byte) (h : 15 ≤ n) : (envelopeOf n o).cksCalc = checksum n o :=
  congrArg Envelope.cksCalc (envelopeOf_eq_withTrailer o h)

theorem envelopeOf_cksRx {n : Nat} (o : Nat → Byte) (h : 15 ≤ n) : (envelopeOf n o).cksRx = o (n - 2) :=
  congrArg Envelope.cksRx (envelopeOf_eq_withTrailer o h)

theorem envelopeOf_bodyOff {n : Nat} (o : Nat → Byte) (h : 15 ≤ n) : (envelopeOf n o).bodyOff = 13#16 :=
  congrArg Envelope.bodyOff (envelopeOf_eq_withTrailer o h)

/-- The length of a body fits in its register, since that of the frame does. -/
theorem toNat_envelopeOf_bodyLen {n : Nat} (o : Nat → Byte) (h : 15 ≤ n) (hn : n < 2 ^ 16) :
    (envelopeOf n o).bodyLen.toNat = n - 15 := by
  have hlen : (envelopeOf n o).bodyLen = BitVec.ofNat 16 (n - 15) :=
    congrArg Envelope.bodyLen (envelopeOf_eq_withTrailer o h)
  rw [hlen, BitVec.toNat_ofNat]
  omega

/-- Without a trailer its registers are 0 (R101). -/
theorem envelopeOf_trailer_of_lt_fifteen {n : Nat} (o : Nat → Byte) (h : n < 15) :
    (envelopeOf n o).cksCalc = 0#8 ∧ (envelopeOf n o).cksRx = 0#8 ∧ (envelopeOf n o).bodyOff = 0#16 ∧
      (envelopeOf n o).bodyLen = 0#16 := by
  rcases lt_or_ge n 13 with hn | hn
  · rw [envelopeOf_short o hn]; exact ⟨rfl, rfl, rfl, rfl⟩
  · rw [envelopeOf_header o hn h]; exact ⟨rfl, rfl, rfl, rfl⟩

/-! ### The checksum over the frame (R103) -/

/-- A stretch inside the frame is those bytes of `OUT`. -/
theorem State.take_drop_frame {s : State} {f c : Nat} (h : f + c ≤ s.outLen.toNat) :
    (s.frame.drop f).take c = s.outBytes f c := by
  refine List.ext_getElem (by simp [State.frame]; omega) fun j _ _ => ?_
  simp [State.frame, State.outBytes]

theorem State.checksum_eq_foldl_outBytes (s : State) (n : Nat) :
    checksum n s.outByte = (s.outBytes 1 (n - 3)).foldl (fun x b => x ^^^ b) 0#8 := by
  simp [checksum, State.outBytes, List.foldl_map, Nat.add_comm]

/-- Settles O21: the flags by what each compares, the registers by whether the frame has a trailer. -/
theorem envelopeJudgesTheFrame : Obligations.EnvelopeJudgesTheFrame := by
  rintro s n _ hlen rfl
  refine ⟨s.envelopeStep.complete, exec_envelope s, ?_⟩
  simp only [State.complete_env, State.complete_status, State.envelopeStep_cause, State.envelopeStep_env,
    envelopeOf_flags, ← hlen]
  refine ⟨envFlagsOf_loaded _ _, envFlagsOf_lenOk _ _, fun hn => ?trailer, fun hn => ?noTrailer, ?valid,
    s.causeTold_envelopeStep_complete⟩
  case trailer =>
    have hbodyOff := envelopeOf_bodyOff s.outByte hn
    have hbodyLen := toNat_envelopeOf_bodyLen s.outByte hn (hlen ▸ s.outLen.isLt)
    have hframe := s.take_drop_frame (f := 1) (c := n - 3) (by omega)
    refine ⟨?start, ?fin, ?sum, envelopeOf_cksRx _ hn, ?cksOk, hbodyOff, hbodyLen, ?body⟩
    case start => rw [envFlagsOf_startOk, and_iff_right hn]
    case fin => rw [envFlagsOf_endOk, and_iff_right hn]
    case sum => rw [envelopeOf_cksCalc _ hn, hframe, s.checksum_eq_foldl_outBytes]
    case cksOk => rw [envFlagsOf_cksOk, and_iff_right hn, envelopeOf_cksCalc _ hn, envelopeOf_cksRx _ hn]
    case body =>
      rw [hbodyOff, hbodyLen]
      show 13 + (n - 15) = n - 2
      omega
  case noTrailer =>
    obtain ⟨hlenOk, hstart, hend, hcks⟩ := envFlagsOf_of_lt_fifteen s.outByte hn
    obtain ⟨hcalc, hrx, hbodyOff, hbodyLen⟩ := envelopeOf_trailer_of_lt_fifteen s.outByte hn
    refine ⟨hstart, hend, hcks, hcalc, hrx, hbodyOff, hbodyLen, ?_⟩
    simp [causeOf, envFlagsOf_isValid, hlenOk]
  case valid => simp [envFlagsOf_isValid, and_assoc]

/-! ### The laws of the checksum (R108) -/

/-- A frame longer by one byte takes one more byte into its checksum. -/
theorem checksum_succ {n : Nat} (h : 3 ≤ n) (o : Nat → Byte) : checksum (n + 1) o = checksum n o ^^^ o (n - 2) := by
  have hsub : n + 1 - 3 = n - 3 + 1 := by omega
  have hlast : n - 3 + 1 = n - 2 := by omega
  rw [checksum, hsub, List.range_succ, List.foldl_append]
  simp [checksum, hlast]

/-- What is put on one byte of the range is put on the checksum. -/
theorem checksum_of_xor_at {n k : Nat} {o o' : Nat → Byte} {v : Byte} (hk : 1 ≤ k) (hkn : k ≤ n - 3)
    (hv : o' k = o k ^^^ v) (hother : ∀ j, j ≠ k → o' j = o j) : checksum n o' = checksum n o ^^^ v := by
  induction n with
  | zero => omega
  | succ n ih =>
    have hn : 3 ≤ n := by omega
    rw [checksum_succ hn, checksum_succ hn]
    rcases Nat.lt_or_eq_of_le (show k ≤ n - 2 by omega) with hlt | rfl
    · rw [ih (by omega), hother _ (by omega), BitVec.xor_assoc, BitVec.xor_assoc, BitVec.xor_comm v]
    · rw [checksum_congr fun j _ hj => hother j (by omega), hv, BitVec.xor_assoc]

/-- The same difference put on two bytes of the range cancels. -/
theorem checksum_of_xor_at_two {n k l : Nat} {o o' : Nat → Byte} {v : Byte} (hk : 1 ≤ k) (hkl : k < l)
    (hln : l ≤ n - 3) (hvk : o' k = o k ^^^ v) (hvl : o' l = o l ^^^ v)
    (hother : ∀ j, j ≠ k → j ≠ l → o' j = o j) : checksum n o' = checksum n o := by
  have hmid : checksum n (Function.update o k (o' k)) = checksum n o ^^^ v :=
    checksum_of_xor_at hk (by omega) (by simp [hvk]) fun j hj => Function.update_of_ne hj _ _
  have hend : checksum n o' = checksum n (Function.update o k (o' k)) ^^^ v := by
    refine checksum_of_xor_at (by omega) hln ?_ fun j hj => ?_
    · rw [Function.update_of_ne (by omega), hvl]
    · rcases eq_or_ne j k with rfl | hjk
      · rw [Function.update_self]
      · rw [Function.update_of_ne hjk, hother j hjk hj]
  rw [hend, hmid, BitVec.xor_assoc, BitVec.xor_self, BitVec.xor_zero]

theorem xor_bit_ne_self (x : Byte) {b : Nat} (hb : b < 8) : x ^^^ (1#8 <<< b) ≠ x := by
  have hbit : ∀ b, b < 8 → 1#8 <<< b ≠ 0#8 := by decide
  intro h
  refine hbit b hb ?_
  calc 1#8 <<< b = x ^^^ (x ^^^ (1#8 <<< b)) := by rw [← BitVec.xor_assoc, BitVec.xor_self, BitVec.zero_xor]
    _ = 0#8 := by rw [h, BitVec.xor_self]

/-- A byte with one bit altered no longer equals what it was compared with. -/
theorem ne_of_eq_xor_bit {x y d : Byte} {b : Nat} (hb : b < 8) (hy : y = x ^^^ (1#8 <<< b)) (hx : x = d) : y ≠ d := by
  rw [hy, hx]
  exact xor_bit_ne_self d hb

section flagChanges

variable {n : Nat} {o o' : Nat → Byte}

/-- Exactly one of the two bytes compared is altered in one bit. -/
theorem envFlagsOf_cksOk_broken {b : Nat} (hb : b < 8)
    (h : checksum n o' = checksum n o ^^^ (1#8 <<< b) ∧ o' (n - 2) = o (n - 2) ∨
      checksum n o' = checksum n o ∧ o' (n - 2) = o (n - 2) ^^^ (1#8 <<< b))
    (hok : (envFlagsOf n o).cksOk = true) : (envFlagsOf n o').cksOk = false := by
  obtain ⟨-, hcks⟩ := (envFlagsOf_cksOk n o).1 hok
  rw [← Bool.not_eq_true, envFlagsOf_cksOk]
  rintro ⟨-, hcks'⟩
  rcases h with ⟨hcalc, hrx⟩ | ⟨hcalc, hrx⟩
  · exact ne_of_eq_xor_bit hb hcalc hcks (hcks'.trans hrx)
  · exact ne_of_eq_xor_bit hb hrx hcks.symm (hcks'.symm.trans hcalc)

theorem envFlagsOf_cksOk_congr (hcalc : checksum n o' = checksum n o) (hrx : o' (n - 2) = o (n - 2)) :
    (envFlagsOf n o').cksOk = (envFlagsOf n o).cksOk := by
  rw [Bool.eq_iff_iff, envFlagsOf_cksOk, envFlagsOf_cksOk, hcalc, hrx]

theorem envFlagsOf_startOk_congr (h : o' 0 = o 0) : (envFlagsOf n o').startOk = (envFlagsOf n o).startOk := by
  rw [Bool.eq_iff_iff, envFlagsOf_startOk, envFlagsOf_startOk, h]

theorem envFlagsOf_endOk_congr (h : o' (n - 1) = o (n - 1)) : (envFlagsOf n o').endOk = (envFlagsOf n o).endOk := by
  rw [Bool.eq_iff_iff, envFlagsOf_endOk, envFlagsOf_endOk, h]

theorem envFlagsOf_startOk_broken {b : Nat} (hb : b < 8) (h : o' 0 = o 0 ^^^ (1#8 <<< b))
    (hok : (envFlagsOf n o).startOk = true) : (envFlagsOf n o').startOk = false := by
  obtain ⟨-, hmark⟩ := (envFlagsOf_startOk n o).1 hok
  rw [← Bool.not_eq_true, envFlagsOf_startOk]
  exact fun ⟨_, hmark'⟩ => ne_of_eq_xor_bit hb h hmark hmark'

theorem envFlagsOf_endOk_broken {b : Nat} (hb : b < 8) (h : o' (n - 1) = o (n - 1) ^^^ (1#8 <<< b))
    (hok : (envFlagsOf n o).endOk = true) : (envFlagsOf n o').endOk = false := by
  obtain ⟨-, hmark⟩ := (envFlagsOf_endOk n o).1 hok
  rw [← Bool.not_eq_true, envFlagsOf_endOk]
  exact fun ⟨_, hmark'⟩ => ne_of_eq_xor_bit hb h hmark hmark'

end flagChanges

/-- Settles O23: each law by what the change does to the checksum and to the bytes the flags compare. A swap puts the
difference of the two bytes on both. -/
theorem checksumLaws : Obligations.ChecksumLaws := by
  rintro s s' n hlen hlen' hn
  refine ⟨s.envelopeStep.complete, s'.envelopeStep.complete, exec_envelope s, exec_envelope s', ?_⟩
  simp only [State.complete_env, State.envelopeStep_env, hlen', ← hlen, envelopeOf_flags, envelopeOf_cksCalc _ hn]
  refine ⟨fun k b hk hkn hb hv hother => ?flip, fun b hb hv hother => ?flipRx,
    fun k l b hk hkl hln hb hvk hvl hother => ?flipTwo, fun k l hk hkl hln hvk hvl hother => ?swap,
    fun b hb hv hother => ?flipStart, fun b hb hv hother => ?flipEnd⟩
  case flip =>
    have hcalc := checksum_of_xor_at hk hkn hv hother
    exact ⟨hcalc, envFlagsOf_cksOk_broken hb (.inl ⟨hcalc, hother _ (by omega)⟩)⟩
  case flipRx =>
    exact envFlagsOf_cksOk_broken hb (.inr ⟨checksum_congr fun j _ _ => hother j (by omega), hv⟩)
  case flipTwo =>
    have hcalc := checksum_of_xor_at_two hk hkl hln hvk hvl hother
    exact ⟨hcalc, envFlagsOf_cksOk_congr hcalc (hother _ (by omega) (by omega))⟩
  case swap =>
    refine checksum_of_xor_at_two (v := s.outByte k ^^^ s.outByte l) hk hkl hln ?_ ?_ hother
    · rw [hvk, ← BitVec.xor_assoc, BitVec.xor_self, BitVec.zero_xor]
    · rw [hvl, BitVec.xor_comm, BitVec.xor_assoc, BitVec.xor_self, BitVec.xor_zero]
  case flipStart =>
    exact ⟨envFlagsOf_startOk_broken hb hv, envFlagsOf_endOk_congr (hother _ (by omega)),
      envFlagsOf_cksOk_congr (checksum_congr fun j _ _ => hother j (by omega)) (hother _ (by omega))⟩
  case flipEnd =>
    exact ⟨envFlagsOf_endOk_broken hb hv, envFlagsOf_startOk_congr (hother _ (by omega)),
      envFlagsOf_cksOk_congr (checksum_congr fun j _ _ => hother j (by omega)) (hother _ (by omega))⟩

end Sys2Proof.Machine
end

section
/-! DECODE_FRAME (43_frame_decode.md R110 to R113): the class of a message type, the order of the verdict's errors, and
what the verdict leaves of the two steps before it. -/

namespace Sys2Proof.Machine

/-! ### The class of a message type (R111) -/

theorem classOf_locationId : classOf 0x0200#16 = classLocation := if_pos rfl

theorem classOf_of_recognized {t : BitVec 16} (hloc : t ≠ 0x0200#16) (hrec : Config.recognized t = true) :
    classOf t = classGeneric :=
  (if_neg hloc).trans (if_pos hrec)

theorem classOf_of_unrecognized {t : BitVec 16} (hloc : t ≠ 0x0200#16) (hrec : Config.recognized t = false) :
    classOf t = classUnknown :=
  (if_neg hloc).trans (if_neg (by simp [hrec]))

/-- Only the location report and the recognised types have a class of their own. -/
theorem classOf_ne_unknown {t : BitVec 16} (h : t = 0x0200#16 ∨ Config.recognized t = true) :
    classOf t ≠ classUnknown := by
  by_cases hloc : t = 0x0200#16
  · rw [hloc, classOf_locationId]; decide
  · rw [classOf_of_recognized hloc (h.resolve_left hloc)]; decide

/-! ### The error of a loaded header (R113, items 3 to 5) -/

theorem verdictErr_of_unknown (f : EnvFlags) {t : BitVec 16} (h : classOf t = classUnknown) :
    verdictErr f t = errUnknownMessageId :=
  if_pos h

section knownType

variable {f : EnvFlags} {t : BitVec 16} (h : t = 0x0200#16 ∨ Config.recognized t = true)

include h

theorem verdictErr_of_badDigit (hdev : f.devBcdOk = false) : verdictErr f t = errInvalidBcdDigit := by
  simp [verdictErr, classOf_ne_unknown h, hdev]

theorem verdictErr_of_invalid (hdev : f.devBcdOk = true) (hvalid : f.isValid = false) :
    verdictErr f t = errInvalidMessage := by
  simp [verdictErr, classOf_ne_unknown h, hdev, hvalid]

theorem verdictErr_of_valid (hdev : f.devBcdOk = true) (hvalid : f.isValid = true) : verdictErr f t = errNone := by
  simp [verdictErr, classOf_ne_unknown h, hdev, hvalid]

end knownType

/-! ### The verdict (R110) -/

section verdictFields

variable {s : State}

theorem State.verdict_of_unloaded (h : s.env.flags.loaded = false) :
    s.verdict = (s.withClass classNone).raiseError errInvalidMessage :=
  if_pos (by simp [h])

theorem State.verdict_of_loaded (h : s.env.flags.loaded = true) :
    s.verdict = (s.withClass (classOf s.env.msgType)).raiseError (verdictErr s.env.flags s.env.msgType) :=
  if_neg (by simp [h])

theorem State.verdict_cls_of_loaded (h : s.env.flags.loaded = true) :
    s.verdict.status.cls = classOf s.env.msgType := by
  rw [State.verdict_of_loaded h]; rfl

theorem State.verdict_err_of_loaded (h : s.env.flags.loaded = true) :
    s.verdict.status.err = verdictErr s.env.flags s.env.msgType := by
  rw [State.verdict_of_loaded h]; rfl

end verdictFields

/-- The verdict completes the command and replaces `CLASS` and `ERR`. -/
theorem State.verdict_eq (s : State) :
    s.verdict = { s.complete with
      status := { s.complete.status with cls := s.verdict.status.cls, err := s.verdict.status.err } } := by
  unfold State.verdict
  split <;> rfl

/-! ### The command (R110) -/

theorem exec_decodeFrame_of_tooLong {s : State} (h : Config.maxInLen < s.inLen.toNat) :
    exec .decodeFrame s = .next (s.withClass classNone).raiseBounds :=
  if_pos (s.chunkTooLong_iff.2 h)

/-- DECODE_FRAME makes the checks of UNESCAPE, and nothing after them is a fault. -/
theorem exec_decodeFrame_fault_iff (s : State) (f : Fault) :
    exec .decodeFrame s = .fault f ↔ exec .unescape s = .fault f := by
  simp only [exec, execDecodeFrame, execUnescape]
  split
  · simp
  · split <;> simp

/-- Settles O24: the command is the verdict over the two steps, each clause by a branch of the verdict. -/
theorem decodeFrameGivesTheVerdict : Obligations.DecodeFrameGivesTheVerdict := by
  refine ⟨fun v hv => congrArg Except.ok (decodeCtrl_eq_decodeOp_of_masked (op := 3#4) hv), fun s =>
    ⟨fun hready => ?ready, exec_decodeFrame_of_tooLong, fun hfits hnone =>
      (exec_decodeFrame_fault_iff s _).2 (exec_unescape_of_unwritten hfits hnone)⟩⟩
  case ready =>
    refine ⟨s.unescapeStep.complete, s.unescapeStep.envelopeStep.complete, s.unescapeStep.envelopeStep.verdict,
      exec_unescape_of_ready hready, exec_envelope _, exec_decodeFrame_of_ready hready, State.verdict_eq _, ?_⟩
    generalize s.unescapeStep.envelopeStep = e
    simp only [State.complete_env]
    refine ⟨fun hload => ?unloaded, fun hload hloc hrec => ?unknown, fun hload hloc => ?location,
      fun hload hloc hrec => ?generic, fun hload hknown => ?known⟩
    case unloaded =>
      rw [State.verdict_of_unloaded hload]
      exact ⟨rfl, rfl⟩
    case unknown =>
      have hcls := classOf_of_unrecognized hloc hrec
      exact ⟨(State.verdict_cls_of_loaded hload).trans hcls,
        (State.verdict_err_of_loaded hload).trans (verdictErr_of_unknown _ hcls)⟩
    case location => rw [State.verdict_cls_of_loaded hload, hloc, classOf_locationId]
    case generic => rw [State.verdict_cls_of_loaded hload, classOf_of_recognized hloc hrec]
    case known =>
      rw [State.verdict_err_of_loaded hload]
      exact ⟨verdictErr_of_badDigit hknown, verdictErr_of_invalid hknown, verdictErr_of_valid hknown⟩

end Sys2Proof.Machine
end

section
/-! What the results of a command depend on (43_frame_decode.md R115): two states that agree on a command's inputs end
alike in its results. -/

namespace Sys2Proof.Machine

/-! ### The bytes of a chunk and of a frame -/

/-- A chunk that agrees byte by byte with one that is ready is ready too. -/
theorem State.ChunkReady.congr {s s' : State} (h : s.ChunkReady) (hlen : s'.inLen = s.inLen)
    (hin : ∀ k, k < s.inLen.toNat → s'.inByte k = s.inByte k) : s'.ChunkReady := by
  obtain ⟨hfits, hwritten⟩ := h
  rw [State.ChunkReady, hlen]
  exact ⟨hfits, fun k hk => (hin k hk).symm ▸ hwritten k hk⟩

theorem State.chunk_congr {s s' : State} (hlen : s'.inLen = s.inLen)
    (hin : ∀ k, k < s.inLen.toNat → s'.inByte k = s.inByte k) : s'.chunk = s.chunk := by
  rw [State.chunk, State.chunk, hlen]
  exact List.map_congr_left fun k hk => congrArg (·.getD 0#8) (hin k (List.mem_range.1 hk))

/-- Equal frames have equal bytes of `OUT` below `OUT_LEN`. -/
theorem State.outByte_eq_of_frame_eq {s s' : State} (hlen : s'.outLen = s.outLen) (hframe : s'.frame = s.frame)
    {k : Nat} (hk : k < s.outLen.toNat) : s'.outByte k = s.outByte k := by
  rw [State.frame, State.frame, State.outBytes, State.outBytes, hlen] at hframe
  simpa using List.map_inj_left.1 hframe k (List.mem_range.2 hk)

theorem State.outBytes_congr {s s' : State} {f c : Nat}
    (h : ∀ k, f ≤ k → k < f + c → s'.outByte k = s.outByte k) : s'.outBytes f c = s.outBytes f c :=
  List.map_congr_left fun j hj => h (f + j) (by omega) (by have := List.mem_range.1 hj; omega)

theorem memRead_congr {o o' : Nat → Byte} {f c : Nat} (h : ∀ k, f ≤ k → k < f + c → o' k = o k) :
    memRead o' f c = memRead o f c := by
  induction c with
  | zero => rfl
  | succ c ih =>
    rw [memRead_succ, memRead_succ, ih fun k hf hk => h k hf (by omega), h (f + c) (by omega) (by omega)]

/-! ### The envelope of two frames that agree (R94) -/

section envelopeCongr

variable {n : Nat} {o o' : Nat → Byte} (h : ∀ k, k < n → o' k = o k)

include h

theorem deviceBcdValid_congr (hn : 13 ≤ n) : deviceBcdValid o' = deviceBcdValid o :=
  congrArg bcdValid (List.map_congr_left fun j hj => h (5 + j) (by have := List.mem_range.1 hj; omega))

theorem envFlagsOf_congr (hn : 13 ≤ n) : envFlagsOf n o' = envFlagsOf n o := by
  have hsum : checksum n o' = checksum n o := checksum_congr fun k _ hk => h k (by omega)
  simp only [envFlagsOf, hsum, deviceBcdValid_congr h hn, h 0 (by omega), h (n - 1) (by omega), h (n - 2) (by omega)]

theorem withHeader_congr (hn : 13 ≤ n) (e : Envelope) : withHeader o' e = withHeader o e := by
  have hfield : ∀ f c, f + c ≤ 13 → memRead o' f c = memRead o f c := fun f c hfc =>
    memRead_congr fun k _ hk => h k (by omega)
  simp only [withHeader, hfield 1 2 (by decide), hfield 3 2 (by decide), hfield 5 2 (by decide),
    hfield 7 4 (by decide), hfield 11 2 (by decide)]

theorem withTrailer_congr (hn : 13 ≤ n) (e : Envelope) : withTrailer n o' e = withTrailer n o e := by
  have hsum : checksum n o' = checksum n o := checksum_congr fun k _ hk => h k (by omega)
  simp only [withTrailer, hsum, h (n - 2) (by omega)]

/-- The envelope registers are a function of the bytes of the frame; below 13 bytes they are 0. -/
theorem envelopeOf_congr : envelopeOf n o' = envelopeOf n o := by
  rcases lt_or_ge n 13 with hn | hn
  · rw [envelopeOf_short o' hn, envelopeOf_short o hn]
  · simp only [envelopeOf, envFlagsOf_congr h hn, withHeader_congr h hn, withTrailer_congr h hn]

end envelopeCongr

/-! ### The engine's steps -/

section stepCongr

variable {s s' : State}

/-- UNESCAPE leaves the frame of the chunk. -/
theorem State.unescapeStep_congr (hready : s.ChunkReady) (hlen : s'.inLen = s.inLen)
    (hin : ∀ k, k < s.inLen.toNat → s'.inByte k = s.inByte k) :
    s'.unescapeStep.outLen = s.unescapeStep.outLen ∧ s'.unescapeStep.frame = s.unescapeStep.frame := by
  have hready' := hready.congr hlen hin
  have hchunk := State.chunk_congr hlen hin
  obtain ⟨houtLen, -, -, -⟩ := State.unescapeStep_spec hready
  obtain ⟨houtLen', -, -, -⟩ := State.unescapeStep_spec hready'
  refine ⟨BitVec.eq_of_toNat_eq ?_, ?_⟩
  · rw [houtLen', hchunk, houtLen]
  · rw [State.frame_unescapeStep hready', hchunk, State.frame_unescapeStep hready]

theorem State.envelopeStep_env_congr (hlen : s'.outLen = s.outLen)
    (hout : ∀ k, k < s.outLen.toNat → s'.outByte k = s.outByte k) : s'.envelopeStep.env = s.envelopeStep.env := by
  rw [State.envelopeStep_env, State.envelopeStep_env, hlen]
  exact envelopeOf_congr hout

/-- Both codes of ENVELOPE follow the flags. -/
theorem State.envelopeStep_codes_congr (henv : s'.envelopeStep.env = s.envelopeStep.env) :
    s'.envelopeStep.status.err = s.envelopeStep.status.err ∧
      s'.envelopeStep.status.cause = s.envelopeStep.status.cause := by
  simp only [State.envelopeStep_err, State.envelopeStep_cause, henv, and_self]

/-- Both codes of the verdict follow the envelope registers, and it keeps what the two steps left. -/
theorem State.verdict_congr (hlen : s'.outLen = s.outLen) (hframe : s'.frame = s.frame) (henv : s'.env = s.env)
    (hcause : s'.status.cause = s.status.cause) :
    s'.verdict.outLen = s.verdict.outLen ∧ s'.verdict.frame = s.verdict.frame ∧ s'.verdict.env = s.verdict.env ∧
      s'.verdict.status.err = s.verdict.status.err ∧ s'.verdict.status.cause = s.verdict.status.cause ∧
      s'.verdict.status.cls = s.verdict.status.cls := by
  rw [State.verdict, State.verdict, henv]
  split <;> exact ⟨hlen, hframe, henv, rfl, hcause, rfl⟩

/-- BCD inside its bounds reads bytes of the frame only. -/
theorem State.bcdStep_congr (hoff : s'.bcdOff = s.bcdOff) (hcnt : s'.bcdCnt = s.bcdCnt)
    (hin : s.bcdOff.toNat + s.bcdCnt.toNat ≤ s.outLen.toNat)
    (hout : ∀ k, k < s.outLen.toNat → s'.outByte k = s.outByte k) :
    s'.bcdStep.bcd = s.bcdStep.bcd ∧ s'.bcdStep.status.err = s.bcdStep.status.err := by
  have hfield : ∀ k, s.bcdOff.toNat ≤ k → k < s.bcdOff.toNat + s.bcdCnt.toNat → s'.outByte k = s.outByte k :=
    fun k _ hk => hout k (by omega)
  simp only [State.bcdStep_bcd, State.bcdStep_err, hoff, hcnt, memRead_congr hfield, State.outBytes_congr hfield,
    and_self]

end stepCongr

/-- A reserved `OP` is an illegal command (R69, R120). -/
theorem exec_decodeOp_of_reserved {op : BitVec 4} (h : reservedOp op = true) (s : State) :
    exec (decodeOp op) s = .next s.illegalCommand := by
  rcases decodeOp_cases op with ⟨rfl, -⟩ | ⟨rfl, -⟩ | ⟨rfl, -⟩ | ⟨rfl, -⟩ | ⟨-, hop⟩ | ⟨-, hop⟩ | ⟨-, hop⟩ | ⟨-, hop⟩
  iterate 4 exact absurd h (by decide)
  all_goals rw [hop]; rfl

/-- Settles O32: each command ends in what its steps leave, which the steps' laws of congruence compare. A chunk that is
too long and a reserved `OP` end in constant codes. -/
theorem commandsDependOnTheirInputsOnly : Obligations.CommandsDependOnTheirInputsOnly := by
  refine fun s s' => ⟨fun hready hlen hin => ?chunk, fun hlong hlen => ?tooLong, fun hlen hout => ?envelope,
    fun hlen hoff hcnt hout => ?bcd, fun op hop => ?reserved⟩
  case chunk =>
    have hready' := hready.congr hlen hin
    obtain ⟨houtLen, hframe⟩ := State.unescapeStep_congr hready hlen hin
    have henv := State.envelopeStep_env_congr houtLen fun _ hk => State.outByte_eq_of_frame_eq houtLen hframe hk
    obtain ⟨-, hcause⟩ := State.envelopeStep_codes_congr henv
    exact ⟨_, _, _, _, exec_unescape_of_ready hready, exec_unescape_of_ready hready', exec_decodeFrame_of_ready hready,
      exec_decodeFrame_of_ready hready', houtLen, hframe, rfl, rfl, State.verdict_congr houtLen hframe henv hcause⟩
  case tooLong =>
    have hlong' : Config.maxInLen < s'.inLen.toNat := hlen ▸ hlong
    exact ⟨_, _, _, _, exec_unescape_of_tooLong hlong, exec_unescape_of_tooLong hlong',
      exec_decodeFrame_of_tooLong hlong, exec_decodeFrame_of_tooLong hlong', rfl, rfl, rfl, rfl, rfl⟩
  case envelope =>
    have henv := State.envelopeStep_env_congr hlen hout
    exact ⟨_, _, exec_envelope s, exec_envelope s', henv, State.envelopeStep_codes_congr henv⟩
  case bcd =>
    by_cases hin : s.bcdCnt.toNat ≤ 8 ∧ s.bcdOff.toNat + s.bcdCnt.toNat ≤ s.outLen.toNat
    · obtain ⟨hc, hf⟩ := hin
      obtain ⟨hbcd, herr⟩ := State.bcdStep_congr hoff hcnt hf hout
      have hexec' : exec .bcd s' = .next s'.bcdStep.complete :=
        exec_bcd_of_inBounds (by rwa [hcnt]) (by rwa [hoff, hcnt, hlen])
      exact ⟨_, _, exec_bcd_of_inBounds hc hf, hexec', herr, rfl, fun _ _ => hbcd⟩
    · have hexec : exec .bcd s = .next s.raiseBounds := exec_bcd_of_outOfBounds (by omega)
      have hexec' : exec .bcd s' = .next s'.raiseBounds := exec_bcd_of_outOfBounds (by rw [hoff, hcnt, hlen]; omega)
      exact ⟨_, _, hexec, hexec', rfl, rfl, fun hc hf => absurd ⟨hc, hf⟩ hin⟩
  case reserved =>
    exact ⟨_, _, exec_decodeOp_of_reserved hop s, exec_decodeOp_of_reserved hop s', rfl⟩

end Sys2Proof.Machine
end

section
/-! Errors, completion and the interrupt line (60_exceptions.md R118 to R125): everything a command of the engine can end
in, said once, which of these ends is BOUNDS, and what no command writes. -/

namespace Sys2Proof.Machine

/-! ### What a command ends in -/

/-- The states a command ends in, branch by branch: `CommandOutcome s op t` says that the command of `OP` `op` takes `s`
to `t`. The model fault of R136 is no such end. -/
inductive CommandOutcome (s : State) : BitVec 4 → State → Prop
  | unescapeTooLong (h : Config.maxInLen < s.inLen.toNat) : CommandOutcome s 1#4 s.raiseBounds
  | unescape (h : s.ChunkReady) : CommandOutcome s 1#4 s.unescapeStep.complete
  | envelope : CommandOutcome s 2#4 s.envelopeStep.complete
  | decodeFrameTooLong (h : Config.maxInLen < s.inLen.toNat) :
      CommandOutcome s 3#4 (s.withClass classNone).raiseBounds
  | decodeFrame (h : s.ChunkReady) : CommandOutcome s 3#4 s.unescapeStep.envelopeStep.verdict
  | bcdOutOfBounds (h : 8 < s.bcdCnt.toNat ∨ s.outLen.toNat < s.bcdOff.toNat + s.bcdCnt.toNat) :
      CommandOutcome s 4#4 s.raiseBounds
  | bcd (hc : s.bcdCnt.toNat ≤ 8) (hf : s.bcdOff.toNat + s.bcdCnt.toNat ≤ s.outLen.toNat) :
      CommandOutcome s 4#4 s.bcdStep.complete
  | reserved {op : BitVec 4} (h : reservedOp op = true) : CommandOutcome s op s.illegalCommand

/-- A chunk is too long, ready, or fits and has a byte the host has not written (R119, R136). -/
theorem State.chunk_cases (s : State) :
    Config.maxInLen < s.inLen.toNat ∨ s.ChunkReady ∨
      (s.inLen.toNat ≤ Config.maxInLen ∧ ∃ k, k < s.inLen.toNat ∧ s.inByte k = none) := by
  rcases lt_or_ge Config.maxInLen s.inLen.toNat with hlong | hfits
  · exact .inl hlong
  by_cases hwritten : ∀ k, k < s.inLen.toNat → (s.inByte k).isSome = true
  · exact .inr (.inl ⟨hfits, hwritten⟩)
  · exact .inr (.inr ⟨hfits, by simpa using hwritten⟩)

/-- An `OP` value is one of the four commands or reserved (R68, R69). -/
theorem op_cases (op : BitVec 4) :
    op = 1#4 ∨ op = 2#4 ∨ op = 3#4 ∨ op = 4#4 ∨ reservedOp op = true := by
  revert op; decide

/-- A command that answers a next state ends in one of its outcomes. -/
theorem commandOutcome_of_exec {op : BitVec 4} {s t : State} (h : exec (decodeOp op) s = .next t) :
    CommandOutcome s op t := by
  have eq_of {u : State} (hu : exec (decodeOp op) s = .next u) : u = t := Host.Outcome.next.inj (hu.symm.trans h)
  rcases op_cases op with rfl | rfl | rfl | rfl | hop
  · rcases s.chunk_cases with hlong | hready | ⟨hfits, hnone⟩
    · exact eq_of (exec_unescape_of_tooLong hlong) ▸ .unescapeTooLong hlong
    · exact eq_of (exec_unescape_of_ready hready) ▸ .unescape hready
    · cases (exec_unescape_of_unwritten hfits hnone).symm.trans h
  · exact eq_of (exec_envelope s) ▸ .envelope
  · rcases s.chunk_cases with hlong | hready | ⟨hfits, hnone⟩
    · exact eq_of (exec_decodeFrame_of_tooLong hlong) ▸ .decodeFrameTooLong hlong
    · exact eq_of (exec_decodeFrame_of_ready hready) ▸ .decodeFrame hready
    · cases ((exec_decodeFrame_fault_iff s _).2 (exec_unescape_of_unwritten hfits hnone)).symm.trans h
  · by_cases hin : s.bcdCnt.toNat ≤ 8 ∧ s.bcdOff.toNat + s.bcdCnt.toNat ≤ s.outLen.toNat
    · exact eq_of (exec_bcd_of_inBounds hin.1 hin.2) ▸ .bcd hin.1 hin.2
    · have hout : 8 < s.bcdCnt.toNat ∨ s.outLen.toNat < s.bcdOff.toNat + s.bcdCnt.toNat := by omega
      exact eq_of (exec_bcd_of_outOfBounds hout) ▸ .bcdOutOfBounds hout
  · exact eq_of (exec_decodeOp_of_reserved hop s) ▸ .reserved hop

/-- The outcomes of a command are exactly the next states it answers. -/
theorem exec_decodeOp_eq_next_iff {op : BitVec 4} {s t : State} :
    exec (decodeOp op) s = .next t ↔ CommandOutcome s op t := by
  refine ⟨commandOutcome_of_exec, fun h => ?_⟩
  cases h with
  | unescapeTooLong h => exact exec_unescape_of_tooLong h
  | unescape h => exact exec_unescape_of_ready h
  | envelope => exact exec_envelope s
  | decodeFrameTooLong h => exact exec_decodeFrame_of_tooLong h
  | decodeFrame h => exact exec_decodeFrame_of_ready h
  | bcdOutOfBounds h => exact exec_bcd_of_outOfBounds h
  | bcd hc hf => exact exec_bcd_of_inBounds hc hf
  | reserved h => exact exec_decodeOp_of_reserved h s

/-! ### Reserved commands (R120) -/

@[simp] theorem State.illegalCommand_err (s : State) : s.illegalCommand.status.err = errIllegalCommand := rfl

theorem exec_illegalOp6to7 (low : BitVec 1) (s : State) : exec (.illegalOp6to7 low) s = .next s.illegalCommand := rfl

theorem exec_illegalOp8to15 (low : BitVec 3) (s : State) :
    exec (.illegalOp8to15 low) s = .next s.illegalCommand := rfl

/-- A START accepted while idle, by a write to `CTRL` (R52, R109). -/
theorem exec_wr_ctrl_of_start {s : State} {v : Word} (hb : s.status.busy = false) (hv : v.getLsbD 8 = true) :
    exec (.wr 0x00000#18 v) s = .next (s.start v) :=
  (exec_wr_of_idle hb .ctrl v).trans (congrArg _ (s.writeReg_ctrl_of_start hv))

/-- Settles O29: a START takes any `OP`, and every reserved row is the illegal command. -/
theorem reservedCommandsComplete : Obligations.ReservedCommandsComplete := by
  refine ⟨fun s v hv _ hb => ⟨s.start v, exec_wr_ctrl_of_start hb hv, rfl, rfl, rfl⟩, ?_⟩
  rintro s _ rfl
  exact ⟨exec_decodeOp_of_reserved (op := 0#4) rfl s, exec_decodeOp_of_reserved (op := 5#4) rfl s,
    fun low => exec_illegalOp6to7 low s, fun low => exec_illegalOp8to15 low s,
    fun _ hop => exec_decodeOp_of_reserved hop s⟩

/-! ### BOUNDS (R119) -/

theorem State.raiseBounds_withClass_eq (s : State) (c : BitVec 2) :
    (s.withClass c).raiseBounds = { s with status := { s.status.completed errBounds causeNone with cls := c } } := rfl

theorem State.unescapeStep_err (s : State) : s.unescapeStep.status.err = errNone := rfl

theorem envelopeErr_ne_bounds (f : EnvFlags) : envelopeErr f ≠ errBounds := by
  unfold envelopeErr
  split <;> decide

theorem verdictErr_ne_bounds (f : EnvFlags) (t : BitVec 16) : verdictErr f t ≠ errBounds := by
  unfold verdictErr
  repeat' split
  all_goals decide

theorem State.verdict_err_ne_bounds (s : State) : s.verdict.status.err ≠ errBounds := by
  cases hload : s.env.flags.loaded with
  | false =>
    rw [State.verdict_of_unloaded hload]
    exact (by decide : errInvalidMessage ≠ errBounds)
  | true =>
    rw [State.verdict_err_of_loaded hload]
    exact verdictErr_ne_bounds _ _

theorem State.bcdStep_err_ne_bounds (s : State) : s.bcdStep.status.err ≠ errBounds := by
  rw [State.bcdStep_err]
  split <;> decide

/-- Settles O30: the three checks raise BOUNDS, and every other outcome leaves another code. -/
theorem boundsLeavesAllElse : Obligations.BoundsLeavesAllElse := by
  refine fun s => ⟨fun hlong => ⟨?unescape, ?decodeFrame⟩, fun hout => ?bcd, fun op t hexec herr => ?onlyThere⟩
  case unescape => rw [exec_unescape_of_tooLong hlong, s.raiseBounds_eq]
  case decodeFrame => rw [exec_decodeFrame_of_tooLong hlong, s.raiseBounds_withClass_eq]
  case bcd => rw [exec_bcd_of_outOfBounds hout, s.raiseBounds_eq]
  case onlyThere =>
    cases exec_decodeOp_eq_next_iff.1 hexec with
    | unescapeTooLong hlong => exact .inl ⟨rfl, hlong⟩
    | decodeFrameTooLong hlong => exact .inr (.inl ⟨rfl, hlong⟩)
    | bcdOutOfBounds hout => exact .inr (.inr ⟨rfl, hout⟩)
    | unescape => exact absurd (s.unescapeStep_err.symm.trans herr) (by decide)
    | envelope => exact absurd herr (envelopeErr_ne_bounds _)
    | decodeFrame => exact absurd herr (State.verdict_err_ne_bounds _)
    | bcd => exact absurd herr s.bcdStep_err_ne_bounds
    | reserved => exact absurd (s.illegalCommand_err.symm.trans herr) (by decide)

/-! ### Completion (R122) -/

/-- A state with everything a command may write blanked out: the results, every field of `STATUS` but `HAZ`, the buffer
`OUT` and the cursors. A step that keeps the rest writes nothing of the host's. -/
def State.withoutResults (s : State) : State :=
  { s with status := { Status.reset with haz := s.status.haz }, outLen := 0#16, env := Envelope.zero,
           bcd := BcdResult.zero, cursorI := 0#16, cursorO := 0#16, outBuf := [] }

/-- What two states that differ in the engine's writes only have in common. -/
theorem State.withoutResults_eq_iff {s t : State} :
    t.withoutResults = s.withoutResults ↔
      t.status.haz = s.status.haz ∧ t.ctrlOp = s.ctrlOp ∧ t.ctrlIe = s.ctrlIe ∧ t.inLen = s.inLen ∧
      t.bcdOff = s.bcdOff ∧ t.bcdCnt = s.bcdCnt ∧ t.inBuf = s.inBuf ∧ t.pendOp = s.pendOp ∧
      t.pending = s.pending ∧ t.busData = s.busData ∧ t.scanning = s.scanning ∧ t.latency = s.latency ∧
      t.started = s.started ∧ t.draws = s.draws := by
  simp only [State.withoutResults, State.mk.injEq, Status.mk.injEq, true_and]
  tauto

@[simp] theorem State.withoutResults_withErr (s : State) (e : BitVec 4) :
    (s.withErr e).withoutResults = s.withoutResults := rfl

@[simp] theorem State.withoutResults_withCause (s : State) (c : BitVec 4) :
    (s.withCause c).withoutResults = s.withoutResults := rfl

@[simp] theorem State.withoutResults_withClass (s : State) (c : BitVec 2) :
    (s.withClass c).withoutResults = s.withoutResults := rfl

@[simp] theorem State.withoutResults_envelopeStep (s : State) : s.envelopeStep.withoutResults = s.withoutResults := by
  simp only [State.envelopeStep, State.withoutResults_withErr, State.withoutResults_withCause]
  rfl

@[simp] theorem State.withoutResults_bcdStep (s : State) : s.bcdStep.withoutResults = s.withoutResults := by
  simp only [State.bcdStep, State.withoutResults_withErr, State.withoutResults_withCause]
  rfl

@[simp] theorem State.withoutResults_unescapeStep (s : State) : s.unescapeStep.withoutResults = s.withoutResults := by
  rw [State.unescapeStep, scanLoop_frame]
  rfl

/-- The verdict is a completion, after `CLASS` and `ERR` are written. -/
theorem State.verdict_eq_complete (s : State) :
    ∃ u : State, s.verdict = u.complete ∧ u.withoutResults = s.withoutResults := by
  unfold State.verdict
  split <;> exact ⟨_, rfl, by simp only [State.withoutResults_withErr, State.withoutResults_withClass]⟩

/-- Every outcome is the completion of a state that differs from the one before in the engine's writes only. -/
theorem CommandOutcome.eq_complete {op : BitVec 4} {s t : State} (h : CommandOutcome s op t) :
    ∃ u : State, t = u.complete ∧ u.withoutResults = s.withoutResults := by
  cases h with
  | unescapeTooLong => exact ⟨_, rfl, by simp⟩
  | unescape => exact ⟨_, rfl, s.withoutResults_unescapeStep⟩
  | envelope => exact ⟨_, rfl, s.withoutResults_envelopeStep⟩
  | decodeFrameTooLong => exact ⟨_, rfl, by simp⟩
  | decodeFrame =>
    obtain ⟨u, hu, hkept⟩ := s.unescapeStep.envelopeStep.verdict_eq_complete
    exact ⟨u, hu, by simpa using hkept⟩
  | bcdOutOfBounds => exact ⟨_, rfl, by simp⟩
  | bcd => exact ⟨_, rfl, s.withoutResults_bcdStep⟩
  | reserved => exact ⟨_, rfl, by simp⟩

@[simp] theorem State.irq_complete (s : State) : s.complete.irq = s.ctrlIe := Bool.true_and _

/-- Settles O31: every outcome is a completion, and the host's part of the state is outside what commands write. -/
theorem everyCommandCompletes : Obligations.EveryCommandCompletes := by
  intro op s t hexec
  obtain ⟨u, rfl, hkept⟩ := (exec_decodeOp_eq_next_iff.1 hexec).eq_complete
  obtain ⟨hhaz, hop, hie, hlen, hoff, hcnt, hin, hpendOp, hpending, hdata, -⟩ := State.withoutResults_eq_iff.1 hkept
  exact ⟨rfl, rfl, u.irq_complete.trans hie, hhaz, hop, hie, hlen, hoff, hcnt, hin, hpendOp, hpending, hdata⟩

/-! ### The interrupt line (R46, R125) -/

theorem State.irq_iff (s : State) : s.irq = true ↔ s.status.done = true ∧ s.ctrlIe = true := Bool.and_eq_true_iff

theorem State.irq_eq_false_of_ctrlIe_eq_false {s : State} (h : s.ctrlIe = false) : s.irq = false := by
  simp [State.irq, h]

theorem State.acknowledge_done_of_bit {v : Word} (s : State) (hv : v.getLsbD 1 = true) :
    (s.acknowledge v).status.done = false := by
  simp [hv]

/-- A `CTRL` write without START while idle stores `OP` and `IE` (R52). -/
theorem exec_wr_ctrl_of_no_start {s : State} {v : Word} (hb : s.status.busy = false) (hv : v.getLsbD 8 = false) :
    exec (.wr 0x00000#18 v) s = .next (s.storeCtrl v) :=
  (exec_wr_of_idle hb .ctrl v).trans (congrArg _ (s.writeReg_ctrl_of_no_start hv))

/-- Settles O37: an acknowledgement and a START clear `DONE`, a `CTRL` write with `IE` 0 masks it. -/
theorem irqFollowsDoneAndEnable : Obligations.IrqFollowsDoneAndEnable := by
  refine ⟨State.irq_iff, fun s v hv => ?acknowledge, fun s v hb hv => ?start, fun s v hb hv hie => ?mask,
    State.irq_reset⟩
  case acknowledge =>
    exact ⟨s.acknowledge v, exec_wr_of_not_dropped s (r := .status) rfl v,
      State.irq_eq_false_of_done_eq_false (s.acknowledge_done_of_bit hv)⟩
  case start => exact ⟨s.start v, exec_wr_ctrl_of_start hb hv, State.irq_eq_false_of_done_eq_false rfl⟩
  case mask =>
    exact ⟨s.storeCtrl v, exec_wr_ctrl_of_no_start hb hv, State.irq_eq_false_of_ctrlIe_eq_false hie, rfl⟩

end Sys2Proof.Machine
end

section
/-! Reset and hazards (70_reset_and_hazards.md R136, R137): where the model fault arises and that a run does not leave
it, and what becomes of `HAZ`. -/

namespace Sys2Proof.Machine

/-! ### The model fault (R136) -/

/-- UNESCAPE faults in the third case of `State.chunk_cases` and in no other. -/
theorem exec_unescape_fault_iff (s : State) :
    exec .unescape s = .fault .unwrittenInput ↔
      s.inLen.toNat ≤ Config.maxInLen ∧ ∃ k, k < s.inLen.toNat ∧ s.inByte k = none := by
  refine ⟨fun hfault => ?_, fun ⟨hfits, hnone⟩ => exec_unescape_of_unwritten hfits hnone⟩
  rcases s.chunk_cases with hlong | hready | hunwritten
  · cases (exec_unescape_of_tooLong hlong).symm.trans hfault
  · cases (exec_unescape_of_ready hready).symm.trans hfault
  · exact hunwritten

theorem State.exists_unwritten_of_fetchToken {s : State} (h : s.fetchToken = .unwritten) :
    ∃ k, k < s.inLen.toNat ∧ s.inByte k = none := by
  rcases s.fetchToken_cases with ⟨-, hend⟩ | ⟨hi, -, hnone | ⟨hi1, hnone⟩⟩ | ⟨-, b0, -, hwindow⟩
  · cases hend.symm.trans h
  · exact ⟨_, hi, hnone⟩
  · exact ⟨_, hi1, hnone⟩
  · rcases hwindow with ⟨-, -, b1, -, hwindow⟩ | ⟨-, hwindow⟩ <;> cases hwindow.symm.trans h

theorem runToken_fault_iff (k : Token) (s : State) (f : Fault) :
    runToken k s = .fault f ↔ s.fetchToken = .unwritten := by
  unfold runToken
  split
  case h_1 hf => simp [hf]
  case h_2 hf => simp [hf]
  case h_3 hf => split <;> simp [hf]

/-- A command that reads no chunk answers a next state. -/
theorem exists_exec_decodeOp {op : BitVec 4} (hu : op ≠ 1#4) (hd : op ≠ 3#4) (s : State) :
    ∃ t, exec (decodeOp op) s = .next t := by
  rcases op_cases op with rfl | rfl | rfl | rfl | hop
  · exact absurd rfl hu
  · exact ⟨_, exec_envelope s⟩
  · exact absurd rfl hd
  · by_cases hin : s.bcdCnt.toNat ≤ 8 ∧ s.bcdOff.toNat + s.bcdCnt.toNat ≤ s.outLen.toNat
    · exact ⟨_, exec_bcd_of_inBounds hin.1 hin.2⟩
    · exact ⟨_, exec_bcd_of_outOfBounds (by omega)⟩
  · exact ⟨_, exec_decodeOp_of_reserved hop s⟩

theorem format_toInstr (k : Token) : k.toInstr.format = .esctok := by cases k <;> rfl

theorem exists_exec_next {i : Instr} (hu : i ≠ .unescape) (hd : i ≠ .decodeFrame) (ht : i.format ≠ .esctok)
    (s : State) : ∃ t, exec i s = .next t := by
  rcases instr_kinds i with hhost | ⟨op, rfl⟩ | ⟨k, rfl⟩
  · obtain ⟨a, p, hexec, -⟩ := exec_byHost hhost s
    exact ⟨_, hexec⟩
  · exact exists_exec_decodeOp (by rintro rfl; exact hu rfl) (by rintro rfl; exact hd rfl) s
  · exact absurd (format_toInstr k) ht

/-- A run that has ended in a fault stays there. -/
theorem run_add_eq_fault {M : Host.Core} {s : M.State} {f : M.Fault} {k : Nat} (h : M.run k s = .fault f) (j : Nat) :
    M.run (k + j) s = .fault f := by
  induction k generalizing s with
  | zero => cases h
  | succ k ih =>
    rw [Nat.succ_add]
    unfold Host.Core.run at h ⊢
    cases hstep : M.step s with
    | next t =>
      simp only [hstep] at h ⊢
      exact ih h
    | fault r => simpa only [hstep] using h
    | refused r => simp only [hstep, reduceCtorEq] at h

/-- Settles O17: the two commands by the chunk's three cases, a token by its window, the rest by their kind. -/
theorem unwrittenInputIsTheOnlyFault : Obligations.UnwrittenInputIsTheOnlyFault :=
  ⟨exec_unescape_fault_iff,
    fun s => (exec_decodeFrame_fault_iff s _).trans (exec_unescape_fault_iff s),
    fun s k hfault => State.exists_unwritten_of_fetchToken ((runToken_fault_iff k s _).1 (exec_token k s ▸ hfault)),
    fun _ s hu hd ht => exists_exec_next hu hd ht s,
    fun _ _ _ j hfault => run_add_eq_fault hfault j⟩

/-! ### `HAZ` under a host access (R137) -/

/-- A register write reaches `HAZ` only at `STATUS`. -/
theorem State.writeReg_haz (s : State) {r : Reg} (hr : r ≠ .status) (v : Word) :
    (s.writeReg r v).status.haz = s.status.haz := by
  cases r with
  | status => exact absurd rfl hr
  | ctrl =>
    show (if wordStart v then s.start v else s.storeCtrl v).status.haz = _
    split <;> rfl
  | _ => rfl

theorem State.busReadWord_status (s : State) (off : BitVec 18) : (s.busReadWord off).status = s.status := by
  unfold State.busReadWord
  split
  · rfl
  · split <;> rfl

theorem State.busReadIn_status (s : State) (k : BitVec 16) : (s.busReadIn k).status = s.status := by
  unfold State.busReadIn
  split
  · rfl
  · split <;> rfl

theorem State.busReadOut_status (s : State) (k : BitVec 16) : (s.busReadOut k).status = s.status := by
  unfold State.busReadOut
  split
  · rfl
  · split
    · rfl
    · split <;> rfl

theorem State.hostAccess_read_status (s : State) (off : BitVec 18) (w : Width) :
    (s.hostAccess (.read off w)).status = s.status := by
  cases w with
  | one =>
    simp only [State.hostAccess]
    split
    · exact s.busReadIn_status _
    · exact s.busReadOut_status _
    · rfl
  | two => rfl
  | four =>
    simp only [State.hostAccess]
    split
    · exact s.busReadWord_status off
    · rfl

/-- A word write does nothing or is that of the register at its offset. -/
theorem State.hostAccess_write4_cases (s : State) (off : BitVec 18) (v : Word) :
    s.hostAccess (.write4 off v) = s ∨
      ∃ r, off = regOffset r ∧
        s.hostAccess (.write4 off v) = if s.status.busy && droppedWhileBusy r then s.setHaz else s.writeReg r v := by
  simp only [State.hostAccess, State.busWriteWord]
  split
  · split
    · exact .inl rfl
    · next r hr => exact .inr ⟨r, regAt_eq_some hr, rfl⟩
  · exact .inl rfl

theorem State.busWriteIn_haz (s : State) (k : Nat) (b : Byte) :
    (s.busWriteIn k b).status.haz = s.status.haz ∨
      (s.status.busy = true ∧ (s.busWriteIn k b).status.haz = true) := by
  unfold State.busWriteIn
  split
  · exact .inl rfl
  · split
    · next hb => exact .inr ⟨hb, rfl⟩
    · exact .inl rfl

/-- What a host access can do to `HAZ`: nothing, record a dropped write, or clear it at `STATUS`. -/
theorem State.hostAccess_haz_cases (s : State) (a : Access) :
    (s.hostAccess a).status.haz = s.status.haz ∨
    (s.status.busy = true ∧ (s.hostAccess a).status.haz = true) ∨
    ∃ v, a = .write4 (regOffset .status) v ∧ (s.hostAccess a).status.haz = (s.status.haz && !v.getLsbD 2) := by
  cases a with
  | read off w => exact .inl (congrArg Status.haz (s.hostAccess_read_status off w))
  | write1 off b =>
    simp only [State.hostAccess]
    split
    · exact (s.busWriteIn_haz _ b).imp_right .inl
    · exact .inl rfl
    · exact .inl rfl
  | write2 off d => exact .inl rfl
  | write4 off v =>
    rcases s.hostAccess_write4_cases off v with h | ⟨r, rfl, h⟩
    · exact .inl (by rw [h])
    rw [h]
    split
    · next hdrop => exact .inr (.inl ⟨(Bool.and_eq_true_iff.1 hdrop).1, rfl⟩)
    · by_cases hr : r = .status
      · subst hr
        exact .inr (.inr ⟨v, rfl, rfl⟩)
      · exact .inl (s.writeReg_haz hr v)

/-! ### `HAZ` under an instruction (R137) -/

/-- The bus access with which the step of an instruction of the host begins (R78, R79). -/
def firstAccess : Instr → Option Access
  | .ctrlWriteNoStart op ie => some (.write4 (regOffset .ctrl) (commandWord op false ie))
  | .wr off data => some (.write4 off data)
  | .rd off => some (.read off .four)
  | .wrb k data => some (.write1 (windowOffset .inp k) data)
  | .rdb win k => some (.read (windowOffset win k) .one)
  | .loadin bytes => (loadinExpansion bytes).head?
  | .cmd c => some (.write4 (regOffset .ctrl) (0x00000100#32 ||| (commandCode c).setWidth 32))
  | .cmdi c => some (.write4 (regOffset .ctrl) (0x00010100#32 ||| (commandCode c).setWidth 32))
  | .waitdone => some (.read (regOffset .status) .four)
  | .ack => some (.write4 (regOffset .status) 0x00000006#32)
  | .bcdarg off cnt => some (.write4 (regOffset .bcdArg) ((cnt.setWidth 32 <<< 16) ||| off))
  | _ => none

/-- Its step performs that access, and puts what is left of the expansion before what the host presents. -/
theorem exec_of_byHost {i : Instr} (hb : byHost i = true) (s : State) :
    ∃ a p, firstAccess i = some a ∧ exec i s = .next { s.hostAccess a with pending := p } := by
  cases i with
  | ctrlWriteNoStart op ie => exact ⟨_, _, rfl, rfl⟩
  | wr off data => exact ⟨_, _, rfl, rfl⟩
  | rd off => exact ⟨_, _, rfl, rfl⟩
  | wrb k data => exact ⟨_, _, rfl, rfl⟩
  | rdb win k => exact ⟨_, _, rfl, rfl⟩
  | loadin bytes => cases bytes <;> exact ⟨_, _, rfl, rfl⟩
  | cmd c => exact ⟨_, _, rfl, rfl⟩
  | cmdi c => exact ⟨_, _, rfl, rfl⟩
  | waitdone =>
    simp only [exec, execWaitdone]
    split <;> exact ⟨_, _, rfl, rfl⟩
  | ack => exact ⟨_, _, rfl, rfl⟩
  | bcdarg off cnt => exact ⟨_, _, rfl, rfl⟩
  | _ => cases hb

/-- Only WR at its offset and ACK begin with a `STATUS` write. -/
theorem firstAccess_eq_status_write {i : Instr} {v : Word}
    (h : firstAccess i = some (.write4 (regOffset .status) v)) : i = .wr 0x004#18 v ∨ i = .ack := by
  cases i with
  | wr off data =>
    cases h
    exact .inl rfl
  | ack => exact .inr rfl
  | loadin bytes => cases bytes <;> cases h
  | _ => cases h

/-- A command and a token leave `HAZ` as it is. -/
theorem exec_haz_of_not_byHost {i : Instr} {s t : State} (hb : byHost i = false) (h : exec i s = .next t) :
    t.status.haz = s.status.haz := by
  rcases instr_kinds i with hhost | ⟨op, rfl⟩ | ⟨k, rfl⟩
  · rw [hb] at hhost
    cases hhost
  · obtain ⟨u, rfl, hkept⟩ := (exec_decodeOp_eq_next_iff.1 h).eq_complete
    exact (State.withoutResults_eq_iff.1 hkept).1
  · rcases exec_token_frame h with rfl | rfl <;> rfl

/-- What an instruction can do to `HAZ`: the three things its host access can, and nothing if it is the engine's. -/
theorem exec_haz_cases {i : Instr} {s t : State} (h : exec i s = .next t) :
    t.status.haz = s.status.haz ∨ (s.status.busy = true ∧ t.status.haz = true) ∨
      ∃ v, (i = .wr 0x004#18 v ∨ i = .ack) ∧ t.status.haz = (s.status.haz && !v.getLsbD 2) := by
  cases hb : byHost i with
  | false => exact .inl (exec_haz_of_not_byHost hb h)
  | true =>
    obtain ⟨a, p, ha, hexec⟩ := exec_of_byHost hb s
    obtain rfl := Host.Outcome.next.inj (hexec.symm.trans h)
    rcases s.hostAccess_haz_cases a with hkept | hdropped | ⟨v, rfl, hcleared⟩
    · exact .inl hkept
    · exact .inr (.inl hdropped)
    · exact .inr (.inr ⟨v, firstAccess_eq_status_write ha, hcleared⟩)

/-- Settles O45: the dropped writes one by one, and the rise and the fall of `HAZ` by `exec_haz_cases`. -/
theorem hazRecordsDroppedWrites : Obligations.HazRecordsDroppedWrites := by
  refine ⟨fun s v hb => ⟨?ctrl, ?inLen, ?bcdArg, fun k b hk => ?inp⟩, fun s v => ?status,
    fun i s t hexec hset hclear => ?falls, fun i s t hexec hclear hset => ?rises⟩
  case ctrl => exact exec_wr_of_busy (r := .ctrl) hb rfl v
  case inLen => exact exec_wr_of_busy (r := .inLen) hb rfl v
  case bcdArg => exact exec_wr_of_busy (r := .bcdArg) hb rfl v
  case inp => exact (exec_wrb k b s).trans (congrArg _ (State.busWriteIn_of_busy hb hk b))
  case status => exact exec_wr_of_not_dropped s (r := .status) rfl v
  case falls =>
    rcases exec_haz_cases hexec with hkept | ⟨-, hdropped⟩ | ⟨v, hi, hcleared⟩
    · rw [hkept, hset] at hclear
      cases hclear
    · rw [hdropped] at hclear
      cases hclear
    · have hbit : v.getLsbD 2 = true := by simpa [hclear, hset] using hcleared
      exact hi.imp_left fun hwr => ⟨v, hwr, hbit⟩
  case rises =>
    rcases exec_haz_cases hexec with hkept | ⟨hbusy, -⟩ | ⟨v, -, hcleared⟩
    · rw [hkept, hclear] at hset
      cases hset
    · exact hbusy
    · rw [hcleared, hclear] at hset
      cases hset

end Sys2Proof.Machine
end

section
/-! The encodings (30_encoding.md R67 to R71, R78, R79): a command word is read through its mask, the decoder undoes the
encoder, and a token is read back from the head of a stream. -/

namespace Sys2Proof.Machine

/-! ### Command words (R68) -/

/-- Distinct `OP` values are distinct instructions: a row of several values keeps the low bits as its operand. -/
theorem decodeOp_injective : ∀ op op' : BitVec 4, decodeOp op = decodeOp op' → op = op' := by decide

theorem decodeOp_ne_ctrlWriteNoStart (op op' : BitVec 4) (ie : Bool) : decodeOp op ≠ .ctrlWriteNoStart op' ie := by
  rcases decodeOp_cases op with ⟨-, h⟩ | ⟨-, h⟩ | ⟨-, h⟩ | ⟨-, h⟩ | ⟨-, h⟩ | ⟨-, h⟩ | ⟨-, h⟩ | ⟨-, h⟩ <;> simp [h]

theorem decodeCtrl_of_start {v : Word} (h : wordStart v = true) : decodeCtrl v = decodeOp (wordOp v) := if_pos h

theorem decodeCtrl_of_no_start {v : Word} (h : wordStart v = false) :
    decodeCtrl v = .ctrlWriteNoStart (wordOp v) (wordIe v) :=
  if_neg (by simp [h])

/-- A word is a command exactly when it has START and that command's `OP`. -/
theorem decodeCtrl_eq_decodeOp_iff (v : Word) (op : BitVec 4) :
    decodeCtrl v = decodeOp op ↔ wordStart v = true ∧ wordOp v = op := by
  cases hs : wordStart v with
  | false => simp [decodeCtrl_of_no_start hs, (decodeOp_ne_ctrlWriteNoStart _ _ _).symm]
  | true =>
    rw [decodeCtrl_of_start hs]
    exact ⟨fun h => ⟨rfl, decodeOp_injective _ _ h⟩, fun ⟨_, h⟩ => congrArg decodeOp h⟩

/-- It is no command exactly when it has no START, and then its operands are the word's fields. -/
theorem decodeCtrl_eq_ctrlWriteNoStart_iff (v : Word) :
    decodeCtrl v = .ctrlWriteNoStart (wordOp v) (wordIe v) ↔ wordStart v = false := by
  cases hs : wordStart v with
  | false => simp [decodeCtrl_of_no_start hs]
  | true => simp [decodeCtrl_of_start hs, decodeOp_ne_ctrlWriteNoStart]

theorem getLsbD_commandWord (op : BitVec 4) (start ie : Bool) (i : Nat) :
    (commandWord op start ie).getLsbD i =
      if i < 4 then op.getLsbD i else if i = 8 then start else if i = 16 then ie else false := by
  show BitVec.getLsbD (0#15 ++ BitVec.ofBool ie ++ 0#7 ++ BitVec.ofBool start ++ 0#4 ++ op) i = _
  simp only [BitVec.getLsbD_append, BitVec.getLsbD_ofBool, BitVec.getLsbD_zero]
  grind

/-- The mask of a single command keeps START and `OP` and nothing else. -/
theorem and_commandMask (v : Word) : v &&& 0x0000010F#32 = commandWord (wordOp v) (wordStart v) false := by
  apply BitVec.eq_of_getLsbD_eq
  intro i hi
  have hmask : (0x0000010F#32).getLsbD i = decide (i < 4 ∨ i = 8) := by
    revert i; decide
  rw [BitVec.getLsbD_and, hmask, getLsbD_commandWord]
  by_cases h4 : i < 4
  · simp [h4, wordOp]
  · by_cases h8 : i = 8 <;> simp [h4, h8, wordStart]

/-- The mask of a row of several commands is a part of that mask. -/
theorem and_mask_of_le (v : Word) {m : Word} (hm : 0x0000010F#32 &&& m = m) :
    v &&& m = commandWord (wordOp v) (wordStart v) false &&& m := by
  rw [← and_commandMask, BitVec.and_assoc, hm]

/-- The row of a single command is its mask and its match. -/
theorem decodeCtrl_eq_decodeOp_iff_masked (v : Word) (op : BitVec 4) :
    decodeCtrl v = decodeOp op ↔ v &&& 0x0000010F#32 = commandWord op true false := by
  rw [decodeCtrl_eq_decodeOp_iff, and_commandMask]
  refine ⟨fun ⟨hs, hop⟩ => by rw [hs, hop], fun h => ⟨?_, ?_⟩⟩
  · simpa using congrArg wordStart h
  · simpa using congrArg wordOp h

theorem masked_iff_op_six_or_seven (v : Word) :
    v &&& 0x0000010E#32 = 0x00000106#32 ↔ wordStart v = true ∧ (wordOp v = 6#4 ∨ wordOp v = 7#4) := by
  rw [and_mask_of_le v (by decide)]
  generalize wordOp v = op, wordStart v = start
  revert op start; decide

theorem masked_iff_op_eight_or_more (v : Word) :
    v &&& 0x00000108#32 = 0x00000108#32 ↔ wordStart v = true ∧ 8#4 ≤ wordOp v := by
  rw [and_mask_of_le v (by decide)]
  generalize wordOp v = op, wordStart v = start
  revert op start; decide

theorem masked_iff_no_start (v : Word) : v &&& 0x00000100#32 = 0#32 ↔ wordStart v = false := by
  rw [and_mask_of_le v (by decide)]
  generalize wordOp v = op, wordStart v = start
  revert op start; decide

/-- The operand of a row of several commands stands at the low end of `OP`. -/
theorem extractLsb'_wordOp (v : Word) {n : Nat} (hn : n ≤ 4) : (wordOp v).extractLsb' 0 n = v.extractLsb' 0 n := by
  apply BitVec.eq_of_getLsbD_eq
  intro i hi
  have h4 : i < 4 := by omega
  simp [wordOp, hi, h4]

theorem decodeOp_eq_illegalOp6to7_iff : ∀ op : BitVec 4,
    decodeOp op = .illegalOp6to7 (op.extractLsb' 0 1) ↔ op = 6#4 ∨ op = 7#4 := by decide

theorem decodeOp_eq_illegalOp8to15_iff : ∀ op : BitVec 4,
    decodeOp op = .illegalOp8to15 (op.extractLsb' 0 3) ↔ 8#4 ≤ op := by decide

theorem decodeCtrl_eq_illegalOp6to7_iff (v : Word) :
    decodeCtrl v = .illegalOp6to7 (v.extractLsb' 0 1) ↔ v &&& 0x0000010E#32 = 0x00000106#32 := by
  rw [masked_iff_op_six_or_seven, ← extractLsb'_wordOp v (by decide), ← decodeOp_eq_illegalOp6to7_iff]
  cases hs : wordStart v with
  | false => simp [decodeCtrl_of_no_start hs]
  | true => simp [decodeCtrl_of_start hs]

theorem decodeCtrl_eq_illegalOp8to15_iff (v : Word) :
    decodeCtrl v = .illegalOp8to15 (v.extractLsb' 0 3) ↔ v &&& 0x00000108#32 = 0x00000108#32 := by
  rw [masked_iff_op_eight_or_more, ← extractLsb'_wordOp v (by decide), ← decodeOp_eq_illegalOp8to15_iff]
  cases hs : wordStart v with
  | false => simp [decodeCtrl_of_no_start hs]
  | true => simp [decodeCtrl_of_start hs]

/-- Settles O2: the rows of one command by their word under the mask, the others by the bits their masks keep of it. -/
theorem commandWordsDecodeByMask : Obligations.CommandWordsDecodeByMask := by
  intro v
  have hrow := decodeCtrl_eq_decodeOp_iff_masked v
  exact ⟨hrow 1#4, hrow 2#4, hrow 3#4, hrow 4#4, hrow 0#4, hrow 5#4, decodeCtrl_eq_illegalOp6to7_iff v,
    decodeCtrl_eq_illegalOp8to15_iff v, (decodeCtrl_eq_ctrlWriteNoStart_iff v).trans (masked_iff_no_start v).symm⟩

/-! ### Tokens (R70, R71) -/

/-- A stream is read by its first byte and the byte after it, if there is one. -/
theorem decodeStream_cons (b : Byte) (bs : List Byte) :
    decodeStream (b :: bs) = .ok (decodeToken b bs.head?).toInstr := by
  cases bs <;> rfl

/-- The bytes of a token (R70). -/
def tokenBytes : Token → List Byte
  | .esc7d => [0x7D#8, 0x01#8]
  | .escDelim => [0x7D#8, 0x02#8]
  | .lit7d => [0x7D#8]
  | .lit b => [b]

@[simp] theorem encode_toInstr (t : Token) : encode t.toInstr = .esctok (tokenBytes t) := by cases t <;> rfl

theorem length_tokenBytes (t : Token) : (tokenBytes t).length = (Token.consumes t).toNat := by cases t <;> rfl

theorem wellFormed_lit_iff (b : Byte) : (Token.lit b).toInstr.WellFormed ↔ b ≠ Config.esc := by
  show (b != Config.esc) = true ↔ _
  simp

/-- A token is read back from its bytes, unless they are a lone `ESC` that what follows makes a pair of. -/
theorem decodeStream_bytes_append {t : Token} (rest : List Byte) (hwf : t.toInstr.WellFormed)
    (hlone : t = .lit7d → rest.head? ≠ some 0x01#8 ∧ rest.head? ≠ some 0x02#8) :
    decodeStream (tokenBytes t ++ rest) = .ok t.toInstr := by
  cases t with
  | esc7d => rfl
  | escDelim => rfl
  | lit7d =>
    obtain ⟨h1, h2⟩ := hlone rfl
    exact (decodeStream_cons _ rest).trans (congrArg (fun k => Except.ok (Token.toInstr k))
      (decodeToken_esc_eq_lit7d h1 h2))
  | lit b =>
    exact (decodeStream_cons b rest).trans (congrArg (fun k => Except.ok (Token.toInstr k))
      (decodeToken_of_ne_esc _ ((wellFormed_lit_iff b).1 hwf)))

/-- The token a window decodes to is well-formed, and the window begins with its bytes. -/
theorem decodeToken_heads_stream (b : Byte) (bs : List Byte) :
    (decodeToken b bs.head?).toInstr.WellFormed ∧
      ∃ rest, b :: bs = tokenBytes (decodeToken b bs.head?) ++ rest := by
  have pair {c : Byte} (hc : bs.head? = some c) : ∃ rest, b :: bs = [b, c] ++ rest := by
    obtain ⟨rest, rfl⟩ := List.head?_eq_some_iff.1 hc
    exact ⟨rest, rfl⟩
  rcases decodeToken_cases b bs.head? with ⟨rfl, h1, ht⟩ | ⟨rfl, h2, ht⟩ | ⟨rfl, -, -, ht⟩ | ⟨hb, ht⟩ <;> rw [ht]
  · exact ⟨rfl, pair h1⟩
  · exact ⟨rfl, pair h2⟩
  · exact ⟨rfl, bs, rfl⟩
  · exact ⟨(wellFormed_lit_iff b).2 hb, bs, rfl⟩

/-- Settles O4: by the bytes of the token read, and by the token the first bytes of a stream are. -/
theorem tokensReadFromTheStream : Obligations.TokensReadFromTheStream := by
  refine ⟨fun t bs rest hwf henc hlone => ?readBack, fun b bs => ?heads⟩
  case readBack =>
    obtain rfl : tokenBytes t = bs := by simpa using henc
    exact decodeStream_bytes_append rest hwf hlone
  case heads =>
    obtain ⟨hwf, rest, hsplit⟩ := decodeToken_heads_stream b bs
    exact ⟨_, _, rest, decodeStream_cons b bs, hwf, encode_toInstr _, hsplit, length_tokenBytes _⟩

/-! ### The decoder undoes the encoder (R67) -/

theorem decode_encode_toInstr {t : Token} (hwf : t.toInstr.WellFormed) :
    decode (encode t.toInstr) = .ok t.toInstr := by
  rw [encode_toInstr, ← List.append_nil (tokenBytes t)]
  exact decodeStream_bytes_append [] hwf (by simp)

/-- The encoder writes the word of START and `OP`. -/
theorem encode_decodeOp : ∀ op : BitVec 4, encode (decodeOp op) = .ctrl (commandWord op true false) := by decide

theorem decode_encode_decodeOp (op : BitVec 4) : decode (encode (decodeOp op)) = .ok (decodeOp op) := by
  rw [encode_decodeOp]
  exact congrArg Except.ok (decodeCtrl_commandWord_start op false)

theorem decode_encode_byHost {i : Instr} (hb : byHost i = true) (hwf : i.WellFormed) :
    decode (encode i) = .ok i := by
  cases i with
  | ctrlWriteNoStart op ie => exact congrArg Except.ok (decodeCtrl_commandWord_store op ie)
  | wr off data => exact if_pos hwf
  | rd off => exact if_pos hwf
  | wrb k data => simp [encode, decode, decodeBus]
  | rdb win k => simp [encode, decode, decodeBus]
  | loadin bytes => rfl
  | cmd c => rfl
  | cmdi c => rfl
  | waitdone => rfl
  | ack => rfl
  | bcdarg off cnt => rfl
  | _ => cases hb

/-- Settles O3: the host's instructions one by one, the commands by their `OP`, the tokens by their bytes. -/
theorem encodedInstructionsDecode : Obligations.EncodedInstructionsDecode := by
  intro i hwf
  rcases instr_kinds i with hhost | ⟨op, rfl⟩ | ⟨t, rfl⟩
  · exact decode_encode_byHost hhost hwf
  · exact decode_encode_decodeOp op
  · exact decode_encode_toInstr hwf

/-- Settles O1: each word, transaction and line is closed and evaluates to its instruction. -/
theorem writtenWordsDecode : Obligations.WrittenWordsDecode :=
  ⟨rfl, rfl, rfl, rfl, rfl, rfl, rfl, rfl, rfl, rfl, rfl, rfl, rfl, rfl, rfl, rfl⟩

end Sys2Proof.Machine
end

section
/-! The register map and the parameters (10_state.md R27 to R44, 00_scope.md R9, R50): the bits of each register, the
digit registers of a device number and of a BCD field, and the bounds of the open parameters. -/

namespace Sys2Proof.Machine

/-! ### The parameters (R9, R50) -/

theorem fifteen_le_maxInLen : 15 ≤ Config.maxInLen := by
  unfold Config.maxInLen
  omega

theorem maxInLen_le : Config.maxInLen ≤ 65535 := by
  unfold Config.maxInLen
  omega

theorem base_mod : Config.base % 0x40000 = 0 := by
  unfold Config.base
  omega

theorem recognized_unknownId : Config.recognized 0x00FF#16 = false := by
  simp [Config.recognized]

theorem busOffset_busAddress (off : BitVec 18) : busOffset (busAddress off) = some off := by
  have hoff := off.isLt
  have hin : Config.base ≤ busAddress off ∧ busAddress off < Config.base + 0x40000 := by
    unfold busAddress
    omega
  have hsub : busAddress off - Config.base = off.toNat := by
    unfold busAddress
    omega
  rw [busOffset, if_pos hin, hsub, BitVec.ofNat_toNat, BitVec.setWidth_eq]

theorem eq_busAddress_of_busOffset {addr : Nat} {off : BitVec 18} (h : busOffset addr = some off) :
    addr = busAddress off := by
  unfold busOffset at h
  split at h
  · next hin =>
    obtain rfl := Option.some.inj h
    rw [busAddress, BitVec.toNat_ofNat]
    omega
  · cases h

/-- Settles O52: the bounds by how the open choices enter the parameters, the window by arithmetic on offsets. -/
theorem parametersKeepTheirConstraints : Obligations.ParametersKeepTheirConstraints :=
  ⟨fifteen_le_maxInLen, maxInLen_le, rfl, recognized_unknownId, base_mod,
    busOffset_busAddress, fun _ _ => eq_busAddress_of_busOffset⟩

/-! ### The bits of the registers (R27 to R44) -/

theorem State.toNat_readReg_ctrl (s : State) :
    (s.readReg .ctrl).toNat = s.ctrlOp.toNat + 2 ^ 16 * s.ctrlIe.toNat := by
  simp only [State.readReg, commandWord, toNat_append_eq, toNat_ofBool_eq, BitVec.toNat_ofNat, Bool.toNat_false]
  omega

theorem State.toNat_readReg_status (s : State) :
    (s.readReg .status).toNat = s.status.busy.toNat + 2 * s.status.done.toNat + 4 * s.status.haz.toNat
      + 2 ^ 4 * s.status.err.toNat + 2 ^ 8 * s.status.cause.toNat + 2 ^ 12 * s.status.cls.toNat := by
  simp only [State.readReg, toNat_append_eq, toNat_ofBool_eq, BitVec.toNat_ofNat]
  omega

theorem State.toNat_readReg_bcdArg (s : State) :
    (s.readReg .bcdArg).toNat = s.bcdOff.toNat + 2 ^ 16 * s.bcdCnt.toNat := by
  simp only [State.readReg, toNat_append_eq, BitVec.toNat_ofNat]
  omega

theorem State.toNat_readReg_envFlags (s : State) :
    (s.readReg .envFlags).toNat = s.env.flags.loaded.toNat + 2 * s.env.flags.lenOk.toNat
      + 4 * s.env.flags.startOk.toNat + 8 * s.env.flags.endOk.toNat + 16 * s.env.flags.cksOk.toNat
      + 32 * s.env.flags.isValid.toNat + 64 * s.env.flags.devBcdOk.toNat := by
  simp only [State.readReg, toNat_append_eq, toNat_ofBool_eq, BitVec.toNat_ofNat]
  omega

theorem State.toNat_readReg_propDec (s : State) :
    (s.readReg .propDec).toNat =
      s.env.msgLen.toNat + 2 ^ 10 * s.env.encRaw.toNat + 2 ^ 16 * s.env.encMode.toNat := by
  simp only [State.readReg, toNat_append_eq, BitVec.toNat_ofNat]
  omega

theorem State.toNat_readReg_cks (s : State) :
    (s.readReg .cks).toNat = s.env.cksCalc.toNat + 2 ^ 8 * s.env.cksRx.toNat := by
  simp only [State.readReg, toNat_append_eq, BitVec.toNat_ofNat]
  omega

theorem State.toNat_readReg_body (s : State) :
    (s.readReg .body).toNat = s.env.bodyOff.toNat + 2 ^ 16 * s.env.bodyLen.toNat := by
  simp only [State.readReg, toNat_append_eq]
  omega

theorem State.toNat_readReg_cfg (s : State) : (s.readReg .cfg).toNat = Config.maxInLen := by
  have hmax := maxInLen_le
  rw [State.readReg_cfg, BitVec.toNat_ofNat]
  omega

/-- A register of one field that stands at its low end. -/
theorem toNat_setWidth_32 {w : Nat} (hw : w ≤ 32) (x : BitVec w) : (x.setWidth 32).toNat = x.toNat :=
  BitVec.toNat_setWidth_of_le hw

/-- The digit registers are the halves of `DIG` (R41). -/
theorem State.readReg_bcdDig (s : State) :
    (s.readReg .bcdDigHi ++ s.readReg .bcdDigLo : BitVec 64) = s.bcd.dig :=
  extractLsb'_high_append_low s.bcd.dig

theorem State.readReg_bcdVal (s : State) :
    (s.readReg .bcdValHi ++ s.readReg .bcdValLo : BitVec 64) = s.bcd.val :=
  extractLsb'_high_append_low s.bcd.val

/-- Settles O40: register by register, the number a concatenation of fields is. -/
theorem registerLayout : Obligations.RegisterLayout := by
  refine ⟨by decide, fun s => ⟨s.toNat_readReg_ctrl, s.toNat_readReg_status, toNat_setWidth_32 (by decide) s.inLen,
    toNat_setWidth_32 (by decide) s.outLen, s.toNat_readReg_bcdArg, s.toNat_readReg_envFlags,
    toNat_setWidth_32 (by decide) s.env.msgType, toNat_setWidth_32 (by decide) s.env.prop, s.toNat_readReg_propDec,
    toNat_setWidth_32 (by decide) s.env.msgCounter, s.toNat_readReg_cks, toNat_setWidth_32 (by decide) s.env.devHi,
    rfl, s.toNat_readReg_body, s.readReg_bcdDig, s.readReg_bcdVal, ?_, s.toNat_readReg_cfg⟩⟩
  exact (toNat_setWidth_32 (by decide) _).trans (toNat_ofBool_eq s.bcd.ok)

/-! ### Digits in registers (R39, R41, R77) -/

/-- The two digits of the byte that stands `e` bytes above the low end of a register. -/
theorem toNat_extractLsb'_nibbles {w : Nat} (x : BitVec w) (e : Nat) :
    (x.extractLsb' (8 * e + 4) 4).toNat = x.toNat / 256 ^ e % 256 / 16 ∧
      (x.extractLsb' (8 * e) 4).toNat = x.toNat / 256 ^ e % 256 % 16 := by
  have hpow : 2 ^ (8 * e) = 256 ^ e := Nat.pow_mul 2 8 e
  rw [BitVec.extractLsb'_toNat, BitVec.extractLsb'_toNat, Nat.shiftRight_eq_div_pow, Nat.shiftRight_eq_div_pow,
    Nat.pow_add, hpow, ← Nat.div_div_eq_div_mul]
  omega

/-- The digits of a field of bytes that a register holds big-endian, high nibble first. -/
theorem toNat_nibbles_of_memRead {w : Nat} {x : BitVec w} {f : Nat → Byte} {k c : Nat}
    (hx : x.toNat = memRead f k c) {j : Nat} (hj : j < c) :
    (x.extractLsb' (8 * (c - 1 - j) + 4) 4).toNat = (f (k + j)).toNat / 16 ∧
      (x.extractLsb' (8 * (c - 1 - j)) 4).toNat = (f (k + j)).toNat % 16 := by
  rw [← memRead_div_mod f k hj, ← hx]
  exact toNat_extractLsb'_nibbles x (c - 1 - j)

/-- The device registers hold `OUT[5..10]` big-endian (R38, R39, R57). -/
theorem toNat_envelopeOf_dev {n : Nat} (o : Nat → Byte) (h : 13 ≤ n) :
    ((envelopeOf n o).devHi ++ (envelopeOf n o).devLo : BitVec 48).toNat = memRead o 5 6 := by
  show BitVec.toNat ((envelopeOf n o).devHi ++ (envelopeOf n o).devLo) = _
  rw [envelopeOf_devHi o h, envelopeOf_devLo o h]
  have hzero : memRead o 5 0 = 0 := rfl
  simp only [toNat_append_eq]
  simp only [memRead_succ, hzero, Nat.reduceAdd]
  omega

/-- Settles O22: the twelve digits are those of the six bytes that the two registers hold. -/
theorem deviceDigitsInOrder : Obligations.DeviceDigitsInOrder := by
  intro s hn
  refine ⟨s.envelopeStep.complete, exec_envelope s, fun j hj => ?_⟩
  have hdigits := toNat_nibbles_of_memRead (toNat_envelopeOf_dev s.outByte hn) hj
  have hhigh : 8 * (6 - 1 - j) + 4 = 44 - 8 * j := by omega
  have hlow : 8 * (6 - 1 - j) = 40 - 8 * j := by omega
  rwa [hhigh, hlow] at hdigits

/-- Digits `2j` and `2j+1` of a field are the nibbles of byte `j`. -/
theorem getElem?_digits {bs : List Byte} {j : Nat} {b : Byte} (hb : bs[j]? = some b) :
    (digits bs)[2 * j]? = some (b.toNat / 16) ∧ (digits bs)[2 * j + 1]? = some (b.toNat % 16) := by
  induction bs generalizing j with
  | nil => simp at hb
  | cons a bs ih =>
    cases j with
    | zero =>
      obtain rfl : a = b := by simpa using hb
      simp
    | succ j =>
      rw [digits_cons, Nat.mul_succ]
      simpa using ih (by simpa using hb)

theorem State.getElem?_outBytes (s : State) (f : Nat) {c j : Nat} (hj : j < c) :
    (s.outBytes f c)[j]? = some (s.outByte (f + j)) := by
  simp [State.outBytes, hj]

/-- Settles O26: the two registers hold the field big-endian, and so its digits by the nibbles of its bytes. -/
theorem bcdDigitRegisters : Obligations.BcdDigitRegisters := by
  rintro s f c rfl rfl hc hf
  refine ⟨s.bcdStep.complete, exec_bcd_of_inBounds hc hf, ?_⟩
  have hdig : s.bcdStep.complete.bcd.dig.toNat = memRead s.outByte s.bcdOff.toNat s.bcdCnt.toNat :=
    toNat_bcdResultOf_dig _ _ hc _
  simp only [State.readReg_bcdDig]
  refine ⟨hdig, fun h0 => ?none, fun k hk => ?digit⟩
  case none => exact BitVec.eq_of_toNat_eq (by rw [hdig, h0]; rfl)
  case digit =>
    have hj : k / 2 < s.bcdCnt.toNat := by omega
    obtain ⟨hhigh, hlow⟩ := toNat_nibbles_of_memRead hdig hj
    obtain ⟨heven, hodd⟩ := getElem?_digits (s.getElem?_outBytes s.bcdOff.toNat hj)
    rcases Nat.mod_two_eq_zero_or_one k with hk2 | hk2
    · have hpos : 4 * (2 * s.bcdCnt.toNat - 1 - k) = 8 * (s.bcdCnt.toNat - 1 - k / 2) + 4 := by omega
      have hidx : k = 2 * (k / 2) := by omega
      rw [hpos, hhigh, ← heven, ← hidx]
    · have hpos : 4 * (2 * s.bcdCnt.toNat - 1 - k) = 8 * (s.bcdCnt.toNat - 1 - k / 2) := by omega
      have hidx : k = 2 * (k / 2) + 1 := by omega
      rw [hpos, hlow, ← hodd, ← hidx]

end Sys2Proof.Machine
end

section
/-! The host's instructions (30_encoding.md R78, R79): the accesses that do nothing, the byte reads, the lines of a host
program, and what no instruction of the host writes. -/

namespace Sys2Proof.Machine

/-! ### Accesses that are none of the table's (R56) -/

theorem registerForm_eq_false {off : BitVec 18} (h : off.toNat % 4 ≠ 0 ∨ 0x10000 ≤ off.toNat) :
    registerForm off = false := by
  rw [← Bool.not_eq_true, registerForm_iff]
  omega

/-- Outside the two windows (R50). -/
theorem windowOf_eq_none {off : BitVec 18} (h : off.toNat < 0x10000 ∨ 0x30000 ≤ off.toNat) : windowOf off = none := by
  have hbits : (off.extractLsb' 16 2).toNat = off.toNat / 2 ^ 16 % 2 ^ 2 := by
    rw [BitVec.extractLsb'_toNat, Nat.shiftRight_eq_div_pow]
  have hoff := off.isLt
  have hinp : ¬ off.extractLsb' 16 2 = 1#2 := fun he => by
    have hone : (off.extractLsb' 16 2).toNat = 1 := congrArg BitVec.toNat he
    omega
  have hout : ¬ off.extractLsb' 16 2 = 2#2 := fun he => by
    have htwo : (off.extractLsb' 16 2).toNat = 2 := congrArg BitVec.toNat he
    omega
  rw [windowOf, if_neg hinp, if_neg hout]

section otherAccesses

variable (s : State) {off : BitVec 18}

theorem State.hostAccess_write4_of_not_form (h : registerForm off = false) (d : Word) :
    s.hostAccess (.write4 off d) = s := by
  simp [State.hostAccess, h]

theorem State.hostAccess_read4_of_not_form (h : registerForm off = false) :
    s.hostAccess (.read off .four) = s.returnData 0#32 := by
  simp [State.hostAccess, h]

theorem State.hostAccess_read1_of_no_window (h : windowOf off = none) :
    s.hostAccess (.read off .one) = s.returnData 0#32 := by
  simp [State.hostAccess, h]

end otherAccesses

/-- An access that is no instruction of the table has the effect of R56. -/
theorem State.hostAccess_of_decode_error (s : State) {a : Access} {e : DecodeError} (h : decode (.bus a) = .error e) :
    s.hostAccess a = s ∨ s.hostAccess a = s.returnData 0#32 := by
  simp only [decode] at h
  cases a with
  | write4 off d =>
    cases hf : registerForm off with
    | false => exact .inl (s.hostAccess_write4_of_not_form hf d)
    | true => simp [decodeBus, hf] at h
  | write2 off d => exact .inl rfl
  | write1 off d => exact .inl (s.hostAccess_write1_of_not_inp (fun hw => by simp [decodeBus, hw] at h) d)
  | read off w =>
    cases w with
    | four =>
      cases hf : registerForm off with
      | false => exact .inr (s.hostAccess_read4_of_not_form hf)
      | true => simp [decodeBus, hf] at h
    | two => exact .inr rfl
    | one =>
      cases hw : windowOf off with
      | none => exact .inr (s.hostAccess_read1_of_no_window hw)
      | some win => simp [decodeBus, hw] at h

/-- A window offset is made of its window and its index (R50). -/
theorem windowOffset_windowIndex {off : BitVec 18} {win : Window} (h : windowOf off = some win) :
    windowOffset win (windowIndex off) = off := by
  have hsplit : (off.extractLsb' 16 2 ++ off.extractLsb' 0 16 : BitVec 18) = off := by
    rw [BitVec.extractLsb'_append_extractLsb'_eq_extractLsb' (by rfl)]
    exact BitVec.extractLsb'_eq_self
  unfold windowOf at h
  split at h
  · next hbits =>
    cases h
    rwa [hbits] at hsplit
  · split at h
    · next hbits =>
      cases h
      rwa [hbits] at hsplit
    · cases h

/-- An instruction read from a bus access is that access (R78). -/
theorem exec_of_decode_bus {a : Access} {i : Instr} (h : decode (.bus a) = .ok i) (s : State) :
    exec i s = .next (s.hostAccess a) := by
  simp only [decode] at h
  cases a with
  | write4 off d =>
    cases hf : registerForm off with
    | false => simp [decodeBus, hf] at h
    | true =>
      obtain rfl : Instr.wr off d = i := by simpa [decodeBus, hf] using h
      rfl
  | write2 off d => cases h
  | write1 off d =>
    by_cases hw : windowOf off = some .inp
    · obtain rfl : Instr.wrb (windowIndex off) d = i := by simpa [decodeBus, hw] using h
      exact congrArg (fun o => Host.Outcome.next (s.hostAccess (.write1 o d))) (windowOffset_windowIndex hw)
    · simp [decodeBus, hw] at h
  | read off w =>
    cases w with
    | four =>
      cases hf : registerForm off with
      | false => simp [decodeBus, hf] at h
      | true =>
        obtain rfl : Instr.rd off = i := by simpa [decodeBus, hf] using h
        rfl
    | two => cases h
    | one =>
      cases hw : windowOf off with
      | none => simp [decodeBus, hw] at h
      | some win =>
        obtain rfl : Instr.rdb win (windowIndex off) = i := by simpa [decodeBus, hw] using h
        exact congrArg (fun o => Host.Outcome.next (s.hostAccess (.read o .one))) (windowOffset_windowIndex hw)

/-! ### Byte reads (R55) -/

theorem exec_rdb_inp (k : BitVec 16) (s : State) : exec (.rdb .inp k) s = .next (s.busReadIn k) := by
  simp [exec, execRdb, State.hostAccess]

theorem exec_rdb_out (k : BitVec 16) (s : State) : exec (.rdb .out k) s = .next (s.busReadOut k) := by
  simp [exec, execRdb, State.hostAccess]

section byteReads

variable {s : State} {k : BitVec 16}

theorem State.busReadIn_of_le (s : State) (hk : Config.maxInLen ≤ k.toNat) : s.busReadIn k = s.returnData 0#32 :=
  if_pos hk

theorem State.busReadIn_of_written {b : Byte} (hk : k.toNat < Config.maxInLen) (hb : s.inByte k.toNat = some b) :
    s.busReadIn k = s.returnData (b.setWidth 32) := by
  simp [State.busReadIn, Nat.not_le.2 hk, hb]

theorem State.busReadIn_of_unwritten (hk : k.toNat < Config.maxInLen) (hb : s.inByte k.toNat = none) :
    s.busReadIn k = s.returnDrawByte (windowOffset .inp k) := by
  simp [State.busReadIn, Nat.not_le.2 hk, hb]

theorem State.busReadOut_of_le (s : State) (hk : Config.maxInLen ≤ k.toNat) : s.busReadOut k = s.returnData 0#32 :=
  if_pos hk

theorem State.busReadOut_of_busy (hb : s.status.busy = true) (hk : k.toNat < Config.maxInLen) :
    s.busReadOut k = s.returnDrawByte (windowOffset .out k) := by
  simp [State.busReadOut, Nat.not_le.2 hk, hb]

theorem State.busReadOut_of_lt (hb : s.status.busy = false) (hk : k.toNat < Config.maxInLen)
    (hlen : k.toNat < s.outLen.toNat) : s.busReadOut k = s.returnData ((s.outByte k.toNat).setWidth 32) := by
  simp [State.busReadOut, Nat.not_le.2 hk, hb, hlen]

theorem State.busReadOut_of_unspecified (hk : k.toNat < Config.maxInLen)
    (h : s.status.busy = true ∨ s.outLen.toNat ≤ k.toNat) :
    s.busReadOut k = s.returnDrawByte (windowOffset .out k) := by
  cases hb : s.status.busy with
  | true => exact State.busReadOut_of_busy hb hk
  | false =>
    have hlen : s.outLen.toNat ≤ k.toNat := h.resolve_left (by simp [hb])
    simp [State.busReadOut, Nat.not_le.2 hk, hb, Nat.not_lt.2 hlen]

end byteReads

/-- An unspecified byte is a byte. -/
theorem State.returnDrawByte_busData_lt (s : State) (off : BitVec 18) : (s.returnDrawByte off).busData.toNat < 256 := by
  show (((Config.draw s.draws off).setWidth 8).setWidth 32).toNat < 256
  rw [toNat_setWidth_32 (by decide)]
  exact BitVec.isLt _

/-- Settles O42: the outcomes of RDB in each window, of which the draws keep to a byte. -/
theorem byteReads : Obligations.ByteReads := by
  refine fun s k => ⟨fun hk => ?inAbove, fun b hk hb => ?inWritten, fun hk hb => ?inUnwritten,
    fun hbusy hk hlen => ?outBelow, fun hk h => ?outUnspecified, fun hk => ?outAbove⟩
  case inAbove => rw [exec_rdb_inp, s.busReadIn_of_le hk]; rfl
  case inWritten => rw [exec_rdb_inp, State.busReadIn_of_written hk hb]; rfl
  case inUnwritten =>
    exact ⟨_, by rw [exec_rdb_inp, State.busReadIn_of_unwritten hk hb], s.returnDrawByte_busData_lt _, rfl⟩
  case outBelow => rw [exec_rdb_out, State.busReadOut_of_lt hbusy hk hlen]; rfl
  case outUnspecified =>
    exact ⟨_, by rw [exec_rdb_out, State.busReadOut_of_unspecified hk h], s.returnDrawByte_busData_lt _, rfl⟩
  case outAbove => rw [exec_rdb_out, s.busReadOut_of_le hk]; rfl

/-! ### Writes of `CTRL` (R52, R109) -/

/-- A `CTRL` write without START is the register write of its word (R52). -/
theorem exec_ctrlWriteNoStart (op : BitVec 4) (ie : Bool) (s : State) :
    exec (.ctrlWriteNoStart op ie) s = exec (.wr (regOffset .ctrl) (commandWord op false ie)) s := rfl

/-- Settles O35: the register write of `CTRL` with the word that carries the operands. -/
theorem controlWriteWithoutStartStores : Obligations.ControlWriteWithoutStartStores := by
  refine fun s op ie => ⟨fun hb => ?idle, fun hb => ?busy⟩
  case idle =>
    rw [exec_ctrlWriteNoStart, exec_wr_of_idle hb, s.writeReg_ctrl_of_no_start (wordStart_commandWord _ _ _),
      State.storeCtrl, wordOp_commandWord, wordIe_commandWord]
  case busy =>
    rw [exec_ctrlWriteNoStart, exec_wr_of_busy hb rfl]
    rfl

/-- A pseudo-instruction of one register write is that write. -/
theorem exec_cmd (c : Command) (s : State) :
    exec (.cmd c) s = exec (.wr (regOffset .ctrl) (commandWord (commandCode c) true false)) s := by
  have hword : 0x00000100#32 ||| (commandCode c).setWidth 32 = commandWord (commandCode c) true false := by
    cases c <;> decide
  simp only [exec, execCmd, execWr, State.runExpansion_single, hword]

theorem exec_cmdi (c : Command) (s : State) :
    exec (.cmdi c) s = exec (.wr (regOffset .ctrl) (commandWord (commandCode c) true true)) s := by
  have hword : 0x00010100#32 ||| (commandCode c).setWidth 32 = commandWord (commandCode c) true true := by
    cases c <;> decide
  simp only [exec, execCmdi, execWr, State.runExpansion_single, hword]

theorem exec_ack (s : State) : exec .ack s = exec (.wr (regOffset .status) 0x00000006#32) s := by
  simp only [exec, execAck, execWr, State.runExpansion_single]

theorem exec_bcdarg (off : Word) (cnt : BitVec 16) (s : State) :
    exec (.bcdarg off cnt) s = exec (.wr (regOffset .bcdArg) ((cnt.setWidth 32 <<< 16) ||| off)) s := by
  simp only [exec, execBcdarg, execWr, State.runExpansion_single]

/-- The word of START and two operands, written while idle, issues the command of its `OP`. -/
theorem exec_wr_commandWord_of_idle {s : State} (hb : s.status.busy = false) (op : BitVec 4) (ie : Bool) :
    exec (.wr (regOffset .ctrl) (commandWord op true ie)) s = .next (s.start (commandWord op true ie)) := by
  rw [exec_wr_of_idle hb, s.writeReg_ctrl_of_start (wordStart_commandWord _ _ _)]

theorem State.start_commandWord_eq (s : State) (op : BitVec 4) (ie : Bool) :
    s.start (commandWord op true ie) =
      { s with ctrlOp := op, ctrlIe := ie, pendOp := op,
               status := { s.status with busy := true, done := false, err := errNone, cause := causeNone },
               latency := (s.start (commandWord op true ie)).latency, started := s.started + 1 } := by
  simp only [State.start, State.storeCtrl, wordOp_commandWord, wordIe_commandWord]

/-- Settles O34: each expands to the `CTRL` write of its code, whose word is a START. -/
theorem cmdIssuesTheNamedCommand : Obligations.CmdIssuesTheNamedCommand := by
  refine ⟨⟨rfl, rfl, rfl, rfl⟩, ⟨rfl, rfl, rfl, rfl⟩, ?_⟩
  rintro s c _ rfl
  rw [exec_cmd, exec_cmdi]
  refine ⟨fun hb => ?idle, fun hb => ⟨exec_wr_of_busy hb rfl _, exec_wr_of_busy hb rfl _⟩⟩
  case idle =>
    exact ⟨_, _, exec_wr_commandWord_of_idle hb _ false, exec_wr_commandWord_of_idle hb _ true,
      s.start_commandWord_eq _ false, s.start_commandWord_eq _ true⟩

/-- Settles O36: ACK writes both clearing bits of `STATUS`, which is not dropped. -/
theorem ackClearsDoneAndHaz : Obligations.AckClearsDoneAndHaz := by
  intro s
  have hack : exec .ack s = .next (s.acknowledge 0x00000006#32) := by
    rw [exec_ack, exec_wr_of_not_dropped s rfl]
    rfl
  exact ⟨_, hack, s.acknowledge_eq_ite _, State.irq_eq_false_of_done_eq_false (s.acknowledge_done_of_bit rfl)⟩

/-! ### BCDARG (R31, R79) -/

/-- The bits of `(cnt << 16) | off` that `BCD_ARG` keeps. -/
theorem extractLsb'_low_shiftLeft_or (off : Word) (cnt : BitVec 16) :
    ((cnt.setWidth 32 <<< 16) ||| off).extractLsb' 0 16 = off.extractLsb' 0 16 := by
  apply BitVec.eq_of_getLsbD_eq
  intro i hi
  simp [hi]

theorem extractLsb'_high_shiftLeft_or (off : Word) (cnt : BitVec 16) :
    ((cnt.setWidth 32 <<< 16) ||| off).extractLsb' 16 4 = cnt.extractLsb' 0 4 ||| off.extractLsb' 16 4 := by
  apply BitVec.eq_of_getLsbD_eq
  intro i hi
  have hi16 : i < 16 := by omega
  have hi32 : 16 + i < 32 := by omega
  simp [hi, hi16, hi32]

theorem extractLsb'_sixteen_of_lt {off : Word} (h : off.toNat < 65536) : off.extractLsb' 16 4 = 0#4 := by
  apply BitVec.eq_of_toNat_eq
  rw [BitVec.extractLsb'_toNat, Nat.shiftRight_eq_div_pow]
  show off.toNat / 65536 % 16 = 0
  omega

/-- Settles O51: the register write of the two numbers joined, of which the register keeps two fields. -/
theorem bcdargWritesTheOperands : Obligations.BcdargWritesTheOperands := by
  refine fun s off cnt => ⟨fun hb => ?idle, fun hb => (exec_bcdarg off cnt s).trans (exec_wr_of_busy hb rfl _)⟩
  case idle =>
    refine ⟨_, (exec_bcdarg off cnt s).trans (exec_wr_of_idle hb .bcdArg _), rfl, extractLsb'_low_shiftLeft_or off cnt,
      extractLsb'_high_shiftLeft_or off cnt, fun hoff hcnt => ?_⟩
    simp only [State.writeReg, extractLsb'_low_shiftLeft_or, extractLsb'_high_shiftLeft_or,
      extractLsb'_sixteen_of_lt hoff, BitVec.or_zero, BitVec.extractLsb'_toNat, Nat.shiftRight_zero]
    omega

/-! ### WAITDONE and LOADIN (R79) -/

/-- Bit 1 of `STATUS` is `DONE` (R28). -/
theorem State.getLsbD_readReg_status (s : State) : (s.readReg .status).getLsbD 1 = s.status.done := by
  show BitVec.getLsbD (0#18 ++ s.status.cls ++ s.status.cause ++ s.status.err ++ 0#1 ++ BitVec.ofBool s.status.haz
    ++ BitVec.ofBool s.status.done ++ BitVec.ofBool s.status.busy) 1 = _
  simp only [BitVec.getLsbD_append, BitVec.getLsbD_ofBool]
  simp

theorem exec_waitdone (s : State) :
    exec .waitdone s =
      .next (if s.status.done then s.returnData (s.readReg .status)
        else { s.returnData (s.readReg .status) with pending := .line .waitdone :: s.pending }) := by
  have hread : s.hostAccess (.read (regOffset .status) .four) = s.returnData (s.readReg .status) :=
    Host.Outcome.next.inj (exec_rd_of_readable s rfl)
  simp only [exec, execWaitdone, hread, State.returnData_busData, s.getLsbD_readReg_status, State.returnData_pending]

/-- Settles O50: the read of `STATUS`, whose bit 1 is `DONE`. -/
theorem waitdonePollsStatus : Obligations.WaitdonePollsStatus := by
  refine fun s => ⟨fun hd => ?done, fun hd => ?running⟩
  case done => rw [exec_waitdone, hd]; rfl
  case running => rw [exec_waitdone, hd]; rfl

/-- LOADIN of some bytes writes the first one, and presents the transactions of the others. -/
theorem exec_loadin_cons (b : Byte) (bs : List Byte) (s : State) :
    exec (.loadin (b :: bs)) s =
      .next { s.hostAccess (.write1 (windowOffset .inp 0#16) b) with
        pending := (loadBytes 1 bs ++ [Access.write4 (regOffset .inLen) (BitVec.ofNat 32 (bs.length + 1))]).map
          HostInput.access ++ s.pending } := rfl

theorem exec_loadin_nil (s : State) : exec (.loadin []) s = exec (.wr (regOffset .inLen) 0#32) s :=
  congrArg Host.Outcome.next (s.runExpansion_single _)

/-- Settles O48: LOADIN's own step is that of the WRB, or of the WR, its expansion begins with. -/
theorem loadinPerformsItsFirstTransaction : Obligations.LoadinPerformsItsFirstTransaction :=
  ⟨fun s b bs => ⟨_, _, rfl, exec_loadin_cons b bs s, rfl, rfl⟩, fun s => ⟨_, rfl, exec_loadin_nil s⟩⟩

/-! ### What the host leaves (R8, R62, R137, R138) -/

/-- No host access writes `CLASS`. -/
theorem State.hostAccess_cls (s : State) (a : Access) : (s.hostAccess a).status.cls = s.status.cls := by
  rcases s.hostAccess_cases a with h | ⟨-, h⟩ | ⟨v, h⟩ | ⟨-, v, -, h⟩ | ⟨-, v, -, h⟩ | ⟨-, n, h⟩ | ⟨-, f, c, h⟩ |
    ⟨-, k, b, -, h⟩ | ⟨v, h⟩ | ⟨o, h⟩ | ⟨o, h⟩ <;> rw [h] <;> rfl

/-- While a command runs a host access changes nothing of the command's: every write to its inputs is dropped. -/
theorem State.hostAccess_of_busy {s : State} (hb : s.status.busy = true) (a : Access) :
    (s.hostAccess a).inBuf = s.inBuf ∧ (s.hostAccess a).inLen = s.inLen ∧ (s.hostAccess a).bcdOff = s.bcdOff ∧
    (s.hostAccess a).bcdCnt = s.bcdCnt ∧ (s.hostAccess a).ctrlOp = s.ctrlOp ∧ (s.hostAccess a).ctrlIe = s.ctrlIe ∧
    (s.hostAccess a).pendOp = s.pendOp ∧ (s.hostAccess a).status.busy = true ∧
    (s.hostAccess a).status.err = s.status.err ∧ (s.hostAccess a).status.cause = s.status.cause ∧
    (s.hostAccess a).latency = s.latency := by
  have idle {p : Prop} (hidle : s.status.busy = false) : p := by
    rw [hb] at hidle
    cases hidle
  rcases s.hostAccess_cases a with h | ⟨-, h⟩ | ⟨v, h⟩ | ⟨hi, -⟩ | ⟨hi, -⟩ | ⟨hi, -⟩ | ⟨hi, -⟩ | ⟨hi, -⟩ | ⟨v, h⟩ |
    ⟨o, h⟩ | ⟨o, h⟩
  iterate 3
    rw [h]
    simp [hb]
  iterate 5 exact idle hi
  all_goals
    rw [h]
    simp [hb]

/-- Settles O46: every instruction of the host is one access, which writes none of these. -/
theorem hostLeavesTheEngineAlone : Obligations.HostLeavesTheEngineAlone := by
  intro i s t hhost hexec
  obtain ⟨a, p, hnext, -⟩ := exec_byHost hhost s
  obtain rfl := Host.Outcome.next.inj (hnext.symm.trans hexec)
  obtain ⟨houtBuf, houtLen, henv, hbcd, hcursorI, hcursorO, -, -⟩ := s.hostAccess_keeps a
  exact ⟨houtBuf, houtLen, henv, hbcd, hcursorI, hcursorO, s.hostAccess_cls a, fun hb => State.hostAccess_of_busy hb a⟩

/-- Settles O43: the reads by the register or the buffer read, the rest by what no host access writes. -/
theorem resultsReadAsDrawsWhileBusy : Obligations.ResultsReadAsDrawsWhileBusy := by
  refine ⟨fun s hb => ⟨fun r h1 h2 h3 h4 h5 => ?drawn, fun r hr => ?read, fun k hk => ?out, fun k b hk hw => ?inp⟩,
    fun i s t hhost hexec => ?host⟩
  case drawn =>
    refine exec_rd_of_not_readable hb ?_
    cases r with
    | ctrl => exact absurd rfl h1
    | status => exact absurd rfl h2
    | inLen => exact absurd rfl h3
    | bcdArg => exact absurd rfl h4
    | cfg => exact absurd rfl h5
    | _ => rfl
  case read =>
    refine exec_rd_of_readable s ?_
    rcases hr with rfl | rfl | rfl | rfl | rfl <;> rfl
  case out => exact ⟨_, (exec_rdb_out k s).trans (congrArg _ (State.busReadOut_of_busy hb hk)), rfl, rfl⟩
  case inp => exact (exec_rdb_inp k s).trans (congrArg _ (State.busReadIn_of_written hk hw))
  case host =>
    obtain ⟨houtBuf, houtLen, henv, hbcd, -, -, hcls, -⟩ := hostLeavesTheEngineAlone i s t hhost hexec
    exact ⟨houtBuf, houtLen, henv, hbcd, hcls⟩

/-! ### The writers of the flags (R47) -/

theorem State.busWriteIn_busy_done (s : State) (k : Nat) (b : Byte) :
    (s.busWriteIn k b).status.busy = s.status.busy ∧ (s.busWriteIn k b).status.done = s.status.done := by
  unfold State.busWriteIn
  split
  · exact ⟨rfl, rfl⟩
  · split <;> exact ⟨rfl, rfl⟩

/-- What a host access can do to `BUSY` and `DONE`: nothing, unless it starts a command or writes `STATUS`. -/
theorem State.hostAccess_busy_done_cases (s : State) (a : Access) :
    ((s.hostAccess a).status.busy = s.status.busy ∧ (s.hostAccess a).status.done = s.status.done) ∨
    (∃ v, a = .write4 (regOffset .ctrl) v ∧ wordStart v = true ∧ s.status.busy = false ∧
      s.hostAccess a = s.start v) ∨
    ∃ v, a = .write4 (regOffset .status) v ∧ s.hostAccess a = s.acknowledge v := by
  cases a with
  | read off w => simp [s.hostAccess_read_status off w]
  | write1 off b =>
    simp only [State.hostAccess]
    split
    · exact .inl (s.busWriteIn_busy_done _ b)
    · exact .inl ⟨rfl, rfl⟩
    · exact .inl ⟨rfl, rfl⟩
  | write2 off d => exact .inl ⟨rfl, rfl⟩
  | write4 off v =>
    rcases s.hostAccess_write4_cases off v with h | ⟨r, rfl, h⟩
    · exact .inl (by simp [h])
    rw [h]
    split
    · exact .inl ⟨rfl, rfl⟩
    next hkept =>
    cases r with
    | ctrl =>
      cases hv : wordStart v with
      | false => exact .inl (by simp [s.writeReg_ctrl_of_no_start hv])
      | true => exact .inr (.inl ⟨v, rfl, hv, by simpa [droppedWhileBusy] using hkept, s.writeReg_ctrl_of_start hv⟩)
    | status => exact .inr (.inr ⟨v, rfl, rfl⟩)
    | _ => exact .inl ⟨rfl, rfl⟩

/-- The instructions that can start a command (R47, R109). -/
def IssuesStart (i : Instr) : Prop :=
  (∃ v : Word, i = .wr 0x000#18 v ∧ v.getLsbD 8 = true) ∨ (∃ c, i = .cmd c) ∨ (∃ c, i = .cmdi c)

/-- Only they begin with a START. -/
theorem issuesStart_of_firstAccess {i : Instr} {v : Word}
    (h : firstAccess i = some (.write4 (regOffset .ctrl) v)) (hv : wordStart v = true) : IssuesStart i := by
  cases i with
  | ctrlWriteNoStart op ie =>
    cases h
    rw [wordStart_commandWord] at hv
    cases hv
  | wr off data =>
    cases h
    exact .inl ⟨v, rfl, hv⟩
  | cmd c => exact .inr (.inl ⟨c, rfl⟩)
  | cmdi c => exact .inr (.inr ⟨c, rfl⟩)
  | loadin bytes => cases bytes <;> cases h
  | _ => cases h

/-- What an instruction can do to `BUSY` and `DONE`. -/
theorem exec_busy_done_cases {i : Instr} {s t : State} (h : exec i s = .next t) :
    (t.status.busy = s.status.busy ∧ t.status.done = s.status.done) ∨
    ((∃ op, i = decodeOp op) ∧ t.status.busy = false ∧ t.status.done = true) ∨
    (IssuesStart i ∧ s.status.busy = false ∧ t.status.done = false) ∨
    (∃ v, (i = .wr 0x004#18 v ∨ i = .ack) ∧ t.status.busy = s.status.busy ∧
      t.status.done = (s.status.done && !v.getLsbD 1)) := by
  rcases instr_kinds i with hhost | ⟨op, rfl⟩ | ⟨k, rfl⟩
  · obtain ⟨a, p, ha, hexec⟩ := exec_of_byHost hhost s
    obtain rfl := Host.Outcome.next.inj (hexec.symm.trans h)
    rcases s.hostAccess_busy_done_cases a with hkept | ⟨v, rfl, hv, hb, hstart⟩ | ⟨v, rfl, hack⟩
    · exact .inl hkept
    · exact .inr (.inr (.inl ⟨issuesStart_of_firstAccess ha hv, hb, congrArg (·.status.done) hstart⟩))
    · exact .inr (.inr (.inr ⟨v, firstAccess_eq_status_write ha, congrArg (·.status.busy) hack,
        congrArg (·.status.done) hack⟩))
  · obtain ⟨u, rfl, -⟩ := (exec_decodeOp_eq_next_iff.1 h).eq_complete
    exact .inr (.inl ⟨⟨op, rfl⟩, rfl, rfl⟩)
  · rcases exec_token_frame h with rfl | rfl <;> exact .inl ⟨rfl, rfl⟩

/-- The scan writes `OUT` and the cursors only. -/
@[simp] theorem State.unescapeStep_env (s : State) : s.unescapeStep.env = s.env := by
  rw [State.unescapeStep, scanLoop_frame]
  rfl

@[simp] theorem State.unescapeStep_bcd (s : State) : s.unescapeStep.bcd = s.bcd := by
  rw [State.unescapeStep, scanLoop_frame]
  rfl

theorem State.verdict_bcd (s : State) : s.verdict.bcd = s.bcd := by
  unfold State.verdict
  split <;> rfl

/-- The envelope registers are written by two commands, the BCD registers by one. -/
theorem CommandOutcome.env_bcd {op : BitVec 4} {s t : State} (h : CommandOutcome s op t) :
    (t.env = s.env ∨ op = 2#4 ∨ op = 3#4) ∧ (t.bcd = s.bcd ∨ op = 4#4) := by
  cases h with
  | unescapeTooLong => exact ⟨.inl rfl, .inl rfl⟩
  | unescape => exact ⟨.inl s.unescapeStep_env, .inl s.unescapeStep_bcd⟩
  | envelope => exact ⟨.inr (.inl rfl), .inl rfl⟩
  | decodeFrameTooLong => exact ⟨.inl rfl, .inl rfl⟩
  | decodeFrame => exact ⟨.inr (.inr rfl), .inl ((State.verdict_bcd _).trans s.unescapeStep_bcd)⟩
  | bcdOutOfBounds => exact ⟨.inl rfl, .inl rfl⟩
  | bcd => exact ⟨.inl rfl, .inr rfl⟩
  | reserved => exact ⟨.inl rfl, .inl rfl⟩

theorem exec_env_bcd {i : Instr} {s t : State} (h : exec i s = .next t) :
    (t.env = s.env ∨ i = .envelope ∨ i = .decodeFrame) ∧ (t.bcd = s.bcd ∨ i = .bcd) := by
  rcases instr_kinds i with hhost | ⟨op, rfl⟩ | ⟨k, rfl⟩
  · obtain ⟨-, -, henv, hbcd, -⟩ := hostLeavesTheEngineAlone i s t hhost h
    exact ⟨.inl henv, .inl hbcd⟩
  · obtain ⟨henv, hbcd⟩ := (exec_decodeOp_eq_next_iff.1 h).env_bcd
    exact ⟨henv.imp_right (Or.imp (congrArg decodeOp) (congrArg decodeOp)), hbcd.imp_right (congrArg decodeOp)⟩
  · rcases exec_token_frame h with rfl | rfl <;> exact ⟨.inl rfl, .inl rfl⟩

/-- Settles O47: `BUSY` and `DONE` by `exec_busy_done_cases`, the flag registers by who writes the result registers. -/
theorem flagsHaveTheirWriters : Obligations.FlagsHaveTheirWriters := by
  intro i s t hexec
  obtain ⟨henv, hbcd⟩ := exec_env_bcd hexec
  have hcases := exec_busy_done_cases hexec
  refine ⟨fun h0 h1 => ?busyRises, fun h1 h0 => ?busyFalls, fun h0 h1 => ?doneRises, fun h1 h0 => ?doneFalls,
    fun hne => henv.resolve_left fun he => hne (congrArg Envelope.flags he),
    fun hne => hbcd.resolve_left fun he => hne (congrArg BcdResult.ok he)⟩
  case busyRises =>
    rcases hcases with ⟨hb, -⟩ | ⟨-, hb, -⟩ | ⟨hstart, -, -⟩ | ⟨v, -, hb, -⟩
    · simp [hb, h0] at h1
    · simp [hb] at h1
    · exact hstart
    · simp [hb, h0] at h1
  case busyFalls =>
    rcases hcases with ⟨hb, -⟩ | ⟨hop, -, -⟩ | ⟨-, hb, -⟩ | ⟨v, -, hb, -⟩
    · simp [hb, h1] at h0
    · exact hop
    · simp [hb] at h1
    · simp [hb, h1] at h0
  case doneRises =>
    rcases hcases with ⟨-, hd⟩ | ⟨hop, -, -⟩ | ⟨-, -, hd⟩ | ⟨v, -, -, hd⟩
    · simp [hd, h0] at h1
    · exact hop
    · simp [hd] at h1
    · simp [hd, h0] at h1
  case doneFalls =>
    rcases hcases with ⟨-, hd⟩ | ⟨-, -, hd⟩ | ⟨hwr | hcmd | hcmdi, -, -⟩ | ⟨v, rfl | rfl, -, hd⟩
    · simp [hd, h1] at h0
    · simp [hd] at h0
    · exact .inl hwr
    · exact .inr (.inr (.inl hcmd))
    · exact .inr (.inr (.inr (.inl hcmdi)))
    · exact .inr (.inl ⟨v, rfl, by simpa [hd, h1] using h0⟩)
    · exact .inr (.inr (.inr (.inr rfl)))

end Sys2Proof.Machine
end

section
/-! One step (Machine/Fetch.lean): which agent moves and what its step is, once for each kind of step; that an idle
block holds its state, that the reset input restores reset, and that no step is refused. -/

namespace Sys2Proof.Machine

/-! ### Which agent moves (R51, R132, R141) -/

theorem State.engineMoves_iff (s : State) :
    s.engineMoves = true ↔ s.status.busy = true ∧ (s.latency = 0 ∨ s.pending = []) := by
  simp [State.engineMoves]

/-- The engine's step performs the latched `OP`. -/
theorem step_of_engine {s : State} (hscan : s.scanning = false) (hmoves : s.engineMoves = true) :
    step s = exec (decodeOp s.pendOp) s := by
  refine step_run ?_
  rw [State.fetch, if_neg (by simp [hscan]), if_pos hmoves, State.engineWord, decodeCtrl_commandWord_start]

section hostMoves

variable {s : State} (hscan : s.scanning = false) (hmoves : s.engineMoves = false)

include hscan hmoves

theorem State.fetch_of_host {h : HostInput} {rest : List HostInput} (hp : s.pending = h :: rest) :
    s.fetch = (s.takeInput rest).fetchInput h := by
  rw [State.fetch, if_neg (by simp [hscan]), if_neg (by simp [hmoves]), hp]

theorem step_of_nothing_pending (hp : s.pending = []) : step s = .next s := by
  refine step_settled ?_
  rw [State.fetch, if_neg (by simp [hscan]), if_neg (by simp [hmoves]), hp]

/-- A presented access is performed, be it an instruction of the table or not (R51, R56). -/
theorem step_of_access {a : Access} {rest : List HostInput} (hp : s.pending = .access a :: rest) :
    step s = .next ((s.takeInput rest).hostAccess a) := by
  have hfetch := State.fetch_of_host hscan hmoves hp
  unfold State.fetchInput at hfetch
  cases hd : decode (.bus a) with
  | ok i =>
    simp only [hd] at hfetch
    exact (step_run hfetch).trans (exec_of_decode_bus hd _)
  | error e =>
    simp only [hd] at hfetch
    exact step_settled hfetch

theorem step_of_line {l : HostLine} {rest : List HostInput} (hp : s.pending = .line l :: rest) :
    step s = exec (decodeLine l) (s.takeInput rest) :=
  step_run (State.fetch_of_host hscan hmoves hp)

theorem step_of_ctrlWord_start {v : Word} {rest : List HostInput} (hp : s.pending = .ctrlWord v :: rest)
    (hv : wordStart v = true) : step s = exec (.wr (regOffset .ctrl) v) (s.takeInput rest) :=
  step_run ((State.fetch_of_host hscan hmoves hp).trans (if_pos hv))

theorem step_of_ctrlWord_no_start {v : Word} {rest : List HostInput} (hp : s.pending = .ctrlWord v :: rest)
    (hv : wordStart v = false) : step s = exec (decodeCtrl v) (s.takeInput rest) :=
  step_run ((State.fetch_of_host hscan hmoves hp).trans (if_neg (by simp [hv])))

theorem step_of_rst {rest : List HostInput} (hp : s.pending = .rst :: rest) :
    step s = .next (s.takeInput rest).assertReset :=
  step_settled (State.fetch_of_host hscan hmoves hp)

/-- Every input but reset is one host access, with what is left of an expansion before what the host presents. -/
theorem step_of_host_input {h : HostInput} {rest : List HostInput} (hp : s.pending = h :: rest) (hne : h ≠ .rst) :
    ∃ a p, step s = .next { (s.takeInput rest).hostAccess a with pending := p ++ rest } ∧ ∀ x, x ∈ p → x ≠ .rst := by
  have of_byHost {i : Instr} (hb : byHost i = true) (hstep : step s = exec i (s.takeInput rest)) :
      ∃ a p, step s = .next { (s.takeInput rest).hostAccess a with pending := p ++ rest } ∧
        ∀ x, x ∈ p → x ≠ .rst := by
    obtain ⟨a, p, hexec, hp⟩ := exec_byHost hb (s.takeInput rest)
    refine ⟨a, p, hstep.trans hexec, fun x hx => ?_⟩
    rcases hp x hx with ⟨b, rfl⟩ | rfl <;> simp
  cases h with
  | access a =>
    obtain ⟨-, -, -, -, -, -, -, hpending⟩ := (s.takeInput rest).hostAccess_keeps a
    refine ⟨a, [], (step_of_access hscan hmoves hp).trans (congrArg _ ?_), by simp⟩
    rw [List.nil_append]
    exact congrArg (fun q => { (s.takeInput rest).hostAccess a with pending := q }) hpending
  | ctrlWord v =>
    cases hv : wordStart v with
    | true => exact of_byHost rfl (step_of_ctrlWord_start hscan hmoves hp hv)
    | false =>
      refine of_byHost ?_ (step_of_ctrlWord_no_start hscan hmoves hp hv)
      rw [decodeCtrl_of_no_start hv]
      rfl
  | line l => exact of_byHost (by cases l <;> rfl) (step_of_line hscan hmoves hp)
  | rst => exact absurd rfl hne

end hostMoves

/-! ### Between two tokens of a scan (log entry 3) -/

section scans

variable {s : State} (hscan : s.scanning = true)

include hscan

theorem step_of_scan_window {b0 : Byte} {b1 : Option Byte} (hf : s.fetchToken = .window b0 b1) :
    step s = .next (s.takeToken (decodeToken b0 b1)) := by
  have hfetch : s.fetch = .run (decodeToken b0 b1).toInstr s := by
    simp only [State.fetch, hscan, if_true, State.fetchScan, hf]
  rw [step_run hfetch, exec_token, runToken_taken hf]

theorem step_of_scan_end (hf : s.fetchToken = .atEnd) : step s = .next s.finishScan := by
  refine step_settled ?_
  simp only [State.fetch, hscan, if_true, State.fetchScan, hf]

theorem step_of_scan_unwritten (hf : s.fetchToken = .unwritten) : step s = .fault .unwrittenInput := by
  refine step_settled ?_
  simp only [State.fetch, hscan, if_true, State.fetchScan, hf]

end scans

/-! ### Every step -/

/-- The engine does not move while it is idle, nor while accesses of the host still come first. -/
theorem State.engineMoves_eq_false {s : State} {h : HostInput} {rest : List HostInput} (hp : s.pending = h :: rest)
    (hhost : s.status.busy = false ∨ s.latency ≠ 0) : s.engineMoves = false := by
  rw [← Bool.not_eq_true, State.engineMoves_iff, hp]
  rintro ⟨hb, hl | hl⟩
  · rcases hhost with hb' | hl'
    · rw [hb] at hb'
      cases hb'
    · exact hl' hl
  · cases hl

theorem decode_engineWord (s : State) : decode (.ctrl s.engineWord) = .ok (decodeOp s.pendOp) :=
  congrArg Except.ok (decodeCtrl_commandWord_start s.pendOp s.ctrlIe)

/-- Settles O5: each input's step by its kind, with what it decodes to put for the instruction. -/
theorem stepRunsTheDecodedInstruction : Obligations.StepRunsTheDecodedInstruction := by
  refine fun s => ⟨fun hscan hb hmoves => ?engine, fun hscan hhost rest =>
    ⟨fun a i hp hd => ?access, fun l i hp hd => ?line, fun v i hp hv hd => ?store, fun v hp hv => ?start⟩,
    fun hscan b0 b1 i hf hd => ?scan⟩
  case engine => exact ⟨decode_engineWord s, step_of_engine hscan (s.engineMoves_iff.2 ⟨hb, hmoves⟩)⟩
  case access =>
    rw [step_of_access hscan (State.engineMoves_eq_false hp hhost) hp]
    exact (exec_of_decode_bus hd _).symm
  case line =>
    obtain rfl := Except.ok.inj hd
    exact step_of_line hscan (State.engineMoves_eq_false hp hhost) hp
  case store =>
    obtain rfl := Except.ok.inj hd
    exact step_of_ctrlWord_no_start hscan (State.engineMoves_eq_false hp hhost) hp hv
  case start => exact step_of_ctrlWord_start hscan (State.engineMoves_eq_false hp hhost) hp hv
  case scan =>
    have hi : (decodeToken b0 b1).toInstr = i := by
      cases b1 with
      | none => exact Except.ok.inj hd
      | some c => exact Except.ok.inj hd
    rw [step_of_scan_window hscan hf, ← hi, exec_token, runToken_taken hf]

/-- Settles O6: nothing is presented, and the engine does not move while idle. -/
theorem idleBlockHoldsItsState : Obligations.IdleBlockHoldsItsState := fun s hscan hb hp =>
  step_of_nothing_pending hscan (by simp [State.engineMoves, hb]) hp

/-- Settles O33: the `CTRL` write by whether a command runs, the engine's step by `step_of_engine`. -/
theorem startIssuesTheCommand : Obligations.StartIssuesTheCommand :=
  ⟨fun s v hv => ⟨fun hb => ⟨s.start v, exec_wr_ctrl_of_start hb hv, rfl⟩,
      fun hb => exec_wr_of_busy (r := .ctrl) hb rfl v⟩,
    fun s hscan hb hmoves => step_of_engine hscan (s.engineMoves_iff.2 ⟨hb, hmoves⟩)⟩

/-! ### The reset input (R133) -/

/-- No register holds anything of the environment's. -/
theorem State.readReg_assertReset (s : State) (r : Reg) : s.assertReset.readReg r = State.reset.readReg r := by
  cases r <;> rfl

/-- Settles O9: the step is `assertReset`, which is the reset state in all that is the block's. -/
theorem resetInputRestoresReset : Obligations.ResetInputRestoresReset := fun s rest hscan hhost hp =>
  ⟨(s.takeInput rest).assertReset, step_of_rst hscan (State.engineMoves_eq_false hp hhost) hp,
    (s.takeInput rest).readReg_assertReset, rfl, rfl, State.irq_reset, State.inByte_reset, rfl⟩

/-! ### Other accesses (R56) -/

/-- Settles O44: by the width and the place of the access, and in a step by its decode error. -/
theorem otherAccessesDoNothing : Obligations.OtherAccessesDoNothing := by
  refine ⟨fun s off => ⟨fun d => rfl, rfl, fun h => ?word, fun h => ?byte⟩, fun s a e rest hscan hhost hp hd => ?step⟩
  case word =>
    have hform := registerForm_eq_false h
    exact ⟨s.hostAccess_write4_of_not_form hform, s.hostAccess_read4_of_not_form hform⟩
  case byte =>
    have hnone := windowOf_eq_none h
    exact ⟨s.hostAccess_write1_of_not_inp (by simp [hnone]), s.hostAccess_read1_of_no_window hnone⟩
  case step =>
    refine ⟨_, step_of_access hscan (State.engineMoves_eq_false hp hhost) hp, ?_⟩
    rcases (s.takeInput rest).hostAccess_of_decode_error hd with h | h <;> rw [h]
    · exact ⟨rfl, .inl rfl⟩
    · exact ⟨rfl, .inr rfl⟩

/-! ### No refusal (R124, R136) -/

/-- A command answers a next state, or faults at an unwritten byte of the chunk. -/
theorem exec_decodeOp_next_or_fault (op : BitVec 4) (s : State) :
    (∃ t, exec (decodeOp op) s = .next t) ∨
      (exec (decodeOp op) s = .fault .unwrittenInput ∧ ∃ k, k < s.inLen.toNat ∧ s.inByte k = none) := by
  by_cases hu : op = 1#4
  · subst hu
    rcases s.chunk_cases with hlong | hready | ⟨hfits, hnone⟩
    · exact .inl ⟨_, exec_unescape_of_tooLong hlong⟩
    · exact .inl ⟨_, exec_unescape_of_ready hready⟩
    · exact .inr ⟨exec_unescape_of_unwritten hfits hnone, hnone⟩
  by_cases hd : op = 3#4
  · subst hd
    rcases s.chunk_cases with hlong | hready | ⟨hfits, hnone⟩
    · exact .inl ⟨_, exec_decodeFrame_of_tooLong hlong⟩
    · exact .inl ⟨_, exec_decodeFrame_of_ready hready⟩
    · exact .inr ⟨(exec_decodeFrame_fault_iff s _).2 (exec_unescape_of_unwritten hfits hnone), hnone⟩
  exact .inl (exists_exec_decodeOp hu hd s)

/-- Settles O53: a step of a scan by its window, one of the engine's by its command; the host's never fail. -/
theorem noStepIsRefused : Obligations.NoStepIsRefused := by
  intro s
  cases hscan : s.scanning with
  | true =>
    cases hf : s.fetchToken with
    | atEnd => exact .inl ⟨_, step_of_scan_end hscan hf⟩
    | unwritten => exact .inr ⟨step_of_scan_unwritten hscan hf, State.exists_unwritten_of_fetchToken hf⟩
    | window b0 b1 => exact .inl ⟨_, step_of_scan_window hscan hf⟩
  | false =>
    cases hmoves : s.engineMoves with
    | true =>
      rw [step_of_engine hscan hmoves]
      exact exec_decodeOp_next_or_fault s.pendOp s
    | false =>
      cases hp : s.pending with
      | nil => exact .inl ⟨s, step_of_nothing_pending hscan hmoves hp⟩
      | cons h rest =>
        by_cases hrst : h = .rst
        · subst hrst
          exact .inl ⟨_, step_of_rst hscan hmoves hp⟩
        · obtain ⟨a, p, hstep, -⟩ := step_of_host_input hscan hmoves hp hrst
          exact .inl ⟨_, hstep⟩

end Sys2Proof.Machine
end

section
/-! The invariant of the block's state (10_state.md R24 to R26, 60_exceptions.md R117, R122): it holds after reset, and
the host's accesses, the engine's commands and the reset input keep it. -/

namespace Sys2Proof.Machine

/-- Settles O10: both buffers are empty, every code is 0 and no command runs. -/
theorem resetMeetsTheInvariant : Obligations.ResetMeetsTheInvariant where
  inWf := rfl
  inWithin := rfl
  outWf := rfl
  outWithin := rfl
  outLenFits := Nat.zero_le _
  outListed _ hk := absurd hk (Nat.not_lt_zero _)
  errLegal := rfl
  causeLegal := rfl
  flagsCoherent := rfl
  encModeLegal := by decide
  busyClean hb := by cases hb
  notScanning := rfl

/-! ### Host accesses -/

/-- What the environment presents, and how many accesses come first, are outside the invariant. -/
theorem State.Inv.takeInput {s : State} (h : s.Inv) (rest : List HostInput) : (s.takeInput rest).Inv := { h with }

theorem State.Inv.withPending {s : State} (h : s.Inv) (p : List HostInput) : State.Inv { s with pending := p } :=
  { h with }

/-- A START leaves the codes of the last command clear (R109). -/
theorem State.Inv.start {s : State} (h : s.Inv) (v : Word) : (s.start v).Inv :=
  { h with errLegal := rfl, causeLegal := rfl, busyClean := fun _ => ⟨rfl, rfl, rfl, rfl⟩ }

theorem State.Inv.acknowledge {s : State} (h : s.Inv) (v : Word) : (s.acknowledge v).Inv where
  __ := h
  busyClean hb := by
    obtain ⟨hdone, hclean⟩ := h.busyClean hb
    exact ⟨by simp [hdone], hclean⟩

/-- A host access that changes an input of a command comes while no command runs. -/
theorem State.Inv.hostAccess {s : State} (h : s.Inv) (a : Access) : (s.hostAccess a).Inv := by
  rcases s.hostAccess_cases a with e | ⟨-, e⟩ | ⟨v, e⟩ | ⟨-, v, -, e⟩ | ⟨hb, v, -, e⟩ | ⟨hb, n, e⟩ | ⟨hb, f, c, e⟩ |
    ⟨hb, k, b, hk, e⟩ | ⟨v, e⟩ | ⟨o, e⟩ | ⟨o, e⟩ <;> rw [e]
  · exact h
  · exact { h with }
  · exact h.acknowledge v
  · exact h.start v
  · exact { h with busyClean := fun hb' => absurd (hb.symm.trans hb') Bool.false_ne_true }
  · exact { h with }
  · exact { h with }
  · exact { h with inWf := Memory.wf_write k b h.inWf, inWithin := Memory.within_write b hk h.inWithin }
  · exact { h with }
  · exact { h with }
  · exact { h with }

/-! ### The scan of a written chunk (R80 to R85) -/

/-- Where a scan can stand: in a written chunk, and behind it in `OUT`. -/
structure State.ScanReady (s : State) : Prop where
  written : ∀ k, k < s.inLen.toNat → (s.inByte k).isSome = true
  inChunk : s.cursorI.toNat ≤ s.inLen.toNat
  behind : s.cursorO.toNat ≤ s.cursorI.toNat

theorem State.ChunkReady.scanReady {s : State} (h : s.ChunkReady) : s.beginScan.ScanReady where
  written := h.2
  inChunk := Nat.zero_le _
  behind := Nat.le_refl _

theorem State.fetchToken_eq_atEnd {s : State} (h : s.inLen.toNat ≤ s.cursorI.toNat) : s.fetchToken = .atEnd := by
  simp [State.fetchToken, h]

/-- A scan stands at the end of the chunk, or at a token after which it stands further on. -/
theorem State.ScanReady.next {s : State} (h : s.ScanReady) :
    s.fetchToken = .atEnd ∨
      ∃ b0 b1, s.fetchToken = .window b0 b1 ∧ (s.takeToken (decodeToken b0 b1)).ScanReady ∧
        s.cursorI.toNat < (s.takeToken (decodeToken b0 b1)).cursorI.toNat := by
  rcases Nat.lt_or_ge s.cursorI.toNat s.inLen.toNat with hlt | hend
  · obtain ⟨t, b0, b1, hf, rfl, hfits, hpos, -⟩ := s.token_at_cursor h.written hlt
    have hcursorI := s.takeToken_cursorI_toNat hfits
    have hcursorO : (s.takeToken (decodeToken b0 b1)).cursorO.toNat ≤ s.cursorO.toNat + 1 := by
      simp only [State.takeToken_cursorO, BitVec.toNat_add, BitVec.toNat_ofNat]
      omega
    have hbehind := h.behind
    refine .inr ⟨b0, b1, hf, ⟨h.written, ?_, ?_⟩, ?_⟩
    · rw [hcursorI]
      exact hfits
    · omega
    · omega
  · exact .inl (State.fetchToken_eq_atEnd hend)

theorem scanLoop_of_atEnd {s : State} (hf : s.fetchToken = .atEnd) (n : Nat) : scanLoop n s = s := by
  cases n with
  | zero => rfl
  | succ n => simp only [scanLoop, hf]

theorem scanLoop_succ_of_window {s : State} {b0 : Byte} {b1 : Option Byte} (hf : s.fetchToken = .window b0 b1)
    (n : Nat) : scanLoop (n + 1) s = scanLoop n (s.takeToken (decodeToken b0 b1)) := by
  simp only [scanLoop, hf]

/-- A scan of a chunk that fits stores inside `OUT`, and keeps its form. -/
theorem scanLoop_outBuf_canonical (n : Nat) {s : State} (h : s.ScanReady) (hfits : s.inLen.toNat ≤ Config.maxInLen)
    (hwf : s.outBuf.wf = true) (hwithin : s.outBuf.within Config.maxInLen = true) :
    (scanLoop n s).outBuf.wf = true ∧ (scanLoop n s).outBuf.within Config.maxInLen = true := by
  induction n generalizing s with
  | zero => exact ⟨hwf, hwithin⟩
  | succ n ih =>
    rcases h.next with hend | ⟨b0, b1, hf, hnext, hlt⟩
    · rw [scanLoop_of_atEnd hend]
      exact ⟨hwf, hwithin⟩
    · rw [scanLoop_succ_of_window hf]
      have hchunk : (s.takeToken (decodeToken b0 b1)).cursorI.toNat ≤ s.inLen.toNat := hnext.inChunk
      have hstore : s.cursorO.toNat < Config.maxInLen := by
        have hbehind := h.behind
        omega
      exact ih hnext hfits (Memory.wf_write _ _ hwf) (Memory.within_write _ hstore hwithin)

/-! ### The codes and flags a command writes (R32, R35, R117) -/

theorem errLegal_envelopeErr (f : EnvFlags) : errLegal (envelopeErr f) = true := by
  unfold envelopeErr
  split <;> rfl

theorem errLegal_verdictErr (f : EnvFlags) (t : BitVec 16) : errLegal (verdictErr f t) = true := by
  unfold verdictErr
  split
  · rfl
  · split
    · rfl
    · split <;> rfl

theorem causeLegal_causeOf (f : EnvFlags) : causeLegal (causeOf f) = true := by
  unfold causeOf
  split
  · rfl
  · split
    · rfl
    · split <;> rfl

/-- Each flag of the trailer, and the device digits, are gated by the length they need (R101, R104). -/
theorem flagsCoherent_envFlagsOf (n : Nat) (o : Nat → Byte) : flagsCoherent (envFlagsOf n o) = true := by
  have hlen : decide (Config.minFrameLen ≤ n) = true → decide (Config.hdrLen ≤ n) = true := fun h =>
    decide_eq_true (Nat.le_trans (by decide : Config.hdrLen ≤ Config.minFrameLen) (of_decide_eq_true h))
  simp only [flagsCoherent, envFlagsOf]
  grind

theorem encMode_ne_three : ∀ e : BitVec 3, encMode e ≠ 3#2 := by decide

theorem envelopeOf_encMode_ne_three (n : Nat) (o : Nat → Byte) : (envelopeOf n o).encMode ≠ 3#2 := by
  rcases Nat.lt_or_ge n 13 with hn | hn
  · rw [envelopeOf_short o hn]
    decide
  · obtain ⟨-, -, hmode⟩ := envelopeOf_propDec o hn
    rw [hmode]
    exact encMode_ne_three _

/-! ### Commands -/

section completed

variable {s : State}

/-- A command that completes leaves no command running, so nothing is asked of the codes but to be legal. -/
theorem State.Inv.complete (h : s.Inv) : s.complete.Inv := { h with busyClean := fun hb => by cases hb }

variable (h : s.complete.Inv)

include h

theorem State.Inv.complete_withErr {e : BitVec 4} (he : Machine.errLegal e = true) : (s.withErr e).complete.Inv :=
  { h with errLegal := he, busyClean := fun hb => by cases hb }

theorem State.Inv.complete_withCause {c : BitVec 4} (hc : Machine.causeLegal c = true) : (s.withCause c).complete.Inv :=
  { h with causeLegal := hc, busyClean := fun hb => by cases hb }

theorem State.Inv.complete_withClass (c : BitVec 2) : (s.withClass c).complete.Inv :=
  { h with busyClean := fun hb => by cases hb }

/-- The frame of a chunk is no longer than the chunk, and UNESCAPE stores every byte of it. -/
theorem State.Inv.complete_unescapeStep (hready : s.ChunkReady) : s.unescapeStep.complete.Inv := by
  obtain ⟨hlen, hbytes, -, hframe⟩ := State.unescapeStep_spec hready
  have hpairs := State.unescapeStep_outLen_add_pairTokens hready
  obtain ⟨hfits, -⟩ := id hready
  obtain ⟨hwf, hwithin⟩ : s.unescapeStep.outBuf.wf = true ∧ s.unescapeStep.outBuf.within Config.maxInLen = true :=
    scanLoop_outBuf_canonical s.inLen.toNat hready.scanReady hfits h.outWf h.outWithin
  rw [hframe]
  exact { h with
    outWf := hwf
    outWithin := hwithin
    outLenFits := show s.unescapeStep.outLen.toNat ≤ Config.maxInLen by omega
    outListed := fun k (hk : k < s.unescapeStep.outLen.toNat) => by
      show (s.unescapeStep.outBuf.read k).isSome = true
      rw [hbytes k hk, List.getElem?_eq_getElem (hlen ▸ hk)]
      rfl
    errLegal := rfl
    causeLegal := rfl
    busyClean := fun hb => by cases hb }

theorem State.Inv.complete_envelopeStep : s.envelopeStep.complete.Inv :=
  { h with
    errLegal := errLegal_envelopeErr _
    causeLegal := causeLegal_causeOf _
    flagsCoherent := by
      rw [State.complete_env, State.envelopeStep_env, envelopeOf_flags]
      exact flagsCoherent_envFlagsOf _ _
    encModeLegal := envelopeOf_encMode_ne_three _ _
    busyClean := fun hb => by cases hb }

theorem State.Inv.complete_bcdStep : s.bcdStep.complete.Inv :=
  { h with
    errLegal := by
      rw [State.complete_status, State.bcdStep_err]
      split <;> rfl
    causeLegal := rfl
    busyClean := fun hb => by cases hb }

theorem State.Inv.raiseBounds : s.raiseBounds.Inv :=
  State.Inv.complete_withErr (State.Inv.complete_withCause h rfl) rfl

theorem State.Inv.verdict : s.verdict.Inv := by
  unfold State.verdict
  split
  · exact State.Inv.complete_withErr (State.Inv.complete_withClass h classNone) rfl
  · exact State.Inv.complete_withErr (State.Inv.complete_withClass h _) (errLegal_verdictErr _ _)

end completed

/-- Every command keeps the invariant. -/
theorem State.Inv.command {s t : State} {op : BitVec 4} (h : s.Inv) (ht : CommandOutcome s op t) : t.Inv := by
  have hc := h.complete
  cases ht with
  | unescapeTooLong => exact hc.raiseBounds
  | unescape hready => exact hc.complete_unescapeStep hready
  | envelope => exact hc.complete_envelopeStep
  | decodeFrameTooLong => exact State.Inv.raiseBounds (hc.complete_withClass classNone)
  | decodeFrame hready => exact (hc.complete_unescapeStep hready).complete_envelopeStep.verdict
  | bcdOutOfBounds => exact hc.raiseBounds
  | bcd => exact hc.complete_bcdStep
  | reserved => exact hc.complete_withErr rfl

/-! ### Steps -/

theorem State.Inv.assertReset (s : State) : s.assertReset.Inv := { resetMeetsTheInvariant with }

/-- Settles O11: the invariant rules out a scan between tokens, so a step is the engine's command, an idle block's, the
reset input or one host access. -/
theorem stepKeepsTheInvariant : Obligations.StepKeepsTheInvariant := by
  intro s t h hstep
  have eq_of {u : State} (hu : step s = .next u) : u = t := Host.Outcome.next.inj (hu.symm.trans hstep)
  have hscan := h.notScanning
  cases hmoves : s.engineMoves with
  | true =>
    rw [step_of_engine hscan hmoves] at hstep
    exact h.command (exec_decodeOp_eq_next_iff.1 hstep)
  | false =>
    cases hp : s.pending with
    | nil => exact eq_of (step_of_nothing_pending hscan hmoves hp) ▸ h
    | cons input rest =>
      by_cases hrst : input = .rst
      · subst hrst
        exact eq_of (step_of_rst hscan hmoves hp) ▸ State.Inv.assertReset _
      · obtain ⟨a, p, hnext, -⟩ := step_of_host_input hscan hmoves hp hrst
        exact eq_of hnext ▸ ((h.takeInput rest).hostAccess a).withPending _

end Sys2Proof.Machine
end

section
/-! Runs (R51, R60, R79, R141): a running command completes, the atomic UNESCAPE is its tokens, and the steps of LOADIN
load the chunk. -/

namespace Sys2Proof.Machine

theorem run_zero (s : State) : Host.Core.run Sys2Proof.core 0 s = .next s := rfl

theorem run_one_of_next {s t : State} (h : step s = .next t) : Host.Core.run Sys2Proof.core 1 s = .next t :=
  run_succ_next h 0

/-- A run goes on from where a shorter one ended. -/
theorem run_add_of_next {s t : State} {k : Nat} (h : Host.Core.run Sys2Proof.core k s = .next t) (j : Nat) :
    Host.Core.run Sys2Proof.core (k + j) s = Host.Core.run Sys2Proof.core j t := by
  induction k generalizing s with
  | zero =>
    obtain rfl := Host.Outcome.next.inj h
    rw [Nat.zero_add]
  | succ k ih =>
    rw [Nat.succ_add]
    rcases noStepIsRefused s with ⟨u, hu⟩ | ⟨hfault, -⟩
    · rw [run_succ_next hu] at h ⊢
      exact ih h
    · rw [run_succ_fault hfault] at h
      cases h

/-! ### Completion (R141, log entry 4) -/

/-- The state a run of a command ends in: completed, or the model fault. -/
def Completes (o : Host.Outcome State Fault Refusal) : Prop :=
  (∃ t, o = .next t ∧ t.status.busy = false ∧ t.status.done = true) ∨ o = .fault .unwrittenInput

theorem completes_exec_decodeOp (op : BitVec 4) (s : State) : Completes (exec (decodeOp op) s) := by
  rcases exec_decodeOp_next_or_fault op s with ⟨t, ht⟩ | ⟨hfault, -⟩
  · obtain ⟨u, rfl, -⟩ := (exec_decodeOp_eq_next_iff.1 ht).eq_complete
    exact .inl ⟨_, ht, rfl, rfl⟩
  · exact .inr hfault

theorem run_one_of_completes {s : State} (h : Completes (step s)) : Completes (Host.Core.run Sys2Proof.core 1 s) := by
  rcases h with ⟨t, ht, hdone⟩ | hfault
  · exact .inl ⟨t, run_one_of_next ht, hdone⟩
  · exact .inr (run_succ_fault hfault 0)

/-- A step of the host's beside a running command leaves the command running, with one access less to come. -/
theorem step_beside_command {s : State} (hscan : s.scanning = false) (hb : s.status.busy = true)
    (hmoves : s.engineMoves = false) (hrst : ∀ h, h ∈ s.pending → h ≠ .rst) :
    ∃ t, step s = .next t ∧ t.scanning = false ∧ t.status.busy = true ∧ t.latency = s.latency - 1 ∧
      ∀ h, h ∈ t.pending → h ≠ .rst := by
  have hpending : s.pending ≠ [] := fun hnil => by
    rw [s.engineMoves_iff.2 ⟨hb, .inr hnil⟩] at hmoves
    cases hmoves
  obtain ⟨h, rest, hp⟩ := List.exists_cons_of_ne_nil hpending
  rw [hp] at hrst
  obtain ⟨a, p, hstep, hadded⟩ := step_of_host_input hscan hmoves hp (hrst h (by simp))
  obtain ⟨-, -, -, -, -, -, hscan', -⟩ := (s.takeInput rest).hostAccess_keeps a
  obtain ⟨-, -, -, -, -, -, -, hb', -, -, hlatency⟩ := State.hostAccess_of_busy (s := s.takeInput rest) hb a
  refine ⟨_, hstep, hscan'.trans hscan, hb', hlatency, fun x hx => ?_⟩
  rcases List.mem_append.1 hx with hx | hx
  · exact hadded x hx
  · exact hrst x (by simp [hx])

/-- Where the engine moves, the run of its one step is that of the command. -/
theorem run_one_of_engine {s : State} (hscan : s.scanning = false) (hmoves : s.engineMoves = true) :
    Completes (Host.Core.run Sys2Proof.core 1 s) :=
  run_one_of_completes (step_of_engine hscan hmoves ▸ completes_exec_decodeOp s.pendOp s)

/-- By induction on the latency, of which each step of the host's uses up one. -/
theorem exists_run_completes {n : Nat} {s : State} (hn : s.latency = n) (hscan : s.scanning = false)
    (hb : s.status.busy = true) (hrst : ∀ h, h ∈ s.pending → h ≠ .rst) :
    ∃ k, k ≤ n + 1 ∧ Completes (Host.Core.run Sys2Proof.core k s) := by
  induction n generalizing s with
  | zero => exact ⟨1, Nat.le_refl _, run_one_of_engine hscan (s.engineMoves_iff.2 ⟨hb, .inl hn⟩)⟩
  | succ n ih =>
    cases hmoves : s.engineMoves with
    | true => exact ⟨1, by omega, run_one_of_engine hscan hmoves⟩
    | false =>
      obtain ⟨t, hstep, hscan', hb', hlatency, hrst'⟩ := step_beside_command hscan hb hmoves hrst
      obtain ⟨k, hk, hrun⟩ := ih (by omega) hscan' hb' hrst'
      exact ⟨k + 1, by omega, run_succ_next hstep k ▸ hrun⟩

/-- Settles O7: the steps of the host's before the engine's are as many as the latency at most. -/
theorem runningCommandCompletes : Obligations.RunningCommandCompletes := fun _ hscan hb hrst =>
  exists_run_completes rfl hscan hb hrst

/-! ### UNESCAPE and its tokens (R60, R80 to R85) -/

theorem scanLoop_scanning (n : Nat) (s : State) (b : Bool) :
    scanLoop n { s with scanning := b } = { scanLoop n s with scanning := b } := by
  induction n generalizing s with
  | zero => rfl
  | succ n ih =>
    have hf : State.fetchToken { s with scanning := b } = s.fetchToken := rfl
    simp only [scanLoop, hf]
    cases s.fetchToken with
    | window b0 b1 => exact ih (s.takeToken (decodeToken b0 b1))
    | atEnd => rfl
    | unwritten => rfl

/-- A scan run one token a step ends in what the loop of the command leaves. -/
theorem exists_run_scan {n : Nat} {s : State} (h : s.ScanReady) (hscan : s.scanning = true)
    (hn : s.inLen.toNat - s.cursorI.toNat ≤ n) :
    ∃ k, k ≤ n + 1 ∧ Host.Core.run Sys2Proof.core k s = .next (scanLoop n s).finishScan := by
  induction n generalizing s with
  | zero =>
    have hend := State.fetchToken_eq_atEnd (s := s) (by omega)
    exact ⟨1, Nat.le_refl _, run_one_of_next (step_of_scan_end hscan hend)⟩
  | succ n ih =>
    rcases h.next with hend | ⟨b0, b1, hf, hnext, hlt⟩
    · rw [scanLoop_of_atEnd hend]
      exact ⟨1, by omega, run_one_of_next (step_of_scan_end hscan hend)⟩
    · rw [scanLoop_succ_of_window hf]
      have hchunk := hnext.inChunk
      rw [State.takeToken_inLen] at hchunk
      obtain ⟨k, hk, hrun⟩ := ih hnext hscan (by rw [State.takeToken_inLen]; omega)
      exact ⟨k + 1, by omega, (run_succ_next (step_of_scan_window hscan hf) k).trans hrun⟩

/-- Outside a scan the end of the scan is the end of the command. -/
theorem finishScan_scanLoop {s : State} (hscan : s.scanning = false) :
    (scanLoop s.inLen.toNat { s.beginScan with scanning := true }).finishScan = s.unescapeStep.complete := by
  rw [scanLoop_scanning, State.unescapeStep, scanLoop_frame _ s.beginScan]
  simp only [State.finishScan, State.endScan, State.complete, State.withErr, State.withCause, State.beginScan, hscan]

/-- Settles O15: the scan from its start, run to its end. -/
theorem unescapeIsItsTokens : Obligations.UnescapeIsItsTokens := by
  intro s hscan hready
  have hscanning : State.ScanReady { s.beginScan with scanning := true } := { hready.scanReady with }
  rw [exec_unescape_of_ready hready, ← finishScan_scanLoop hscan]
  exact exists_run_scan hscanning rfl (Nat.sub_le _ _)

/-! ### The steps of LOADIN (R79) -/

/-- A buffer with some bytes stored from an index on, in order. -/
def Memory.writeAll : Memory → Nat → List Byte → Memory
  | m, _, [] => m
  | m, k, b :: bs => Memory.writeAll (m.write k b) (k + 1) bs

theorem Memory.read_writeAll (m : Memory) (k : Nat) (bs : List Byte) (j : Nat) :
    (Memory.writeAll m k bs).read j = if k ≤ j ∧ j < k + bs.length then bs[j - k]? else m.read j := by
  induction bs generalizing m k with
  | nil =>
    have hempty : ¬(k ≤ j ∧ j < k + ([] : List Byte).length) := by
      rw [List.length_nil]
      omega
    rw [if_neg hempty]
    rfl
  | cons b bs ih =>
    rw [Memory.writeAll, ih, Memory.read_write, List.length_cons]
    rcases Nat.lt_trichotomy j k with hlt | rfl | hgt
    · rw [if_neg (by omega), if_neg (by omega), if_neg (by omega)]
    · rw [if_neg (by omega), if_pos rfl, if_pos (by omega), Nat.sub_self]
      rfl
    · have hnext : j - k = j - (k + 1) + 1 := by omega
      rw [if_neg (show ¬ j = k by omega), hnext, List.getElem?_cons_succ]
      exact if_congr (by omega) rfl rfl

/-- Inside the buffer each byte write stores its byte. -/
theorem State.hostAccess_write1_of_idle {s : State} (hb : s.status.busy = false) {k : Nat}
    (hk : k < Config.maxInLen) (b : Byte) :
    s.hostAccess (.write1 (windowOffset .inp (BitVec.ofNat 16 k)) b) = { s with inBuf := s.inBuf.write k b } := by
  have hmax := maxInLen_le
  have hindex : (BitVec.ofNat 16 k).toNat = k := by
    rw [BitVec.toNat_ofNat]
    omega
  have hwrb := Host.Outcome.next.inj (exec_wrb (BitVec.ofNat 16 k) b s)
  rw [hindex, State.busWriteIn_of_idle hb hk] at hwrb
  exact hwrb

theorem loadBytes_cons {k : Nat} (hk : k < Config.maxInLen) (b : Byte) (bs : List Byte) :
    loadBytes k (b :: bs) = .write1 (windowOffset .inp (BitVec.ofNat 16 k)) b :: loadBytes (k + 1) bs := by
  have hmax := maxInLen_le
  rw [loadBytes, if_pos (by omega), ofNat_inp (by omega)]

/-- An idle block after as many byte writes as `bs` has bytes, each in its step, with `rest` presented next. -/
def State.afterWrites (s : State) (k : Nat) (bs : List Byte) (rest : List HostInput) : State :=
  { s with inBuf := s.inBuf.writeAll k bs, pending := rest, latency := s.latency - bs.length }

theorem State.afterWrites_nil {s : State} {rest : List HostInput} (hp : s.pending = rest) (k : Nat) :
    s.afterWrites k [] rest = s := by
  subst hp
  rfl

theorem State.afterWrites_cons (s : State) (k : Nat) (b : Byte) (bs : List Byte) (p rest : List HostInput) :
    (s.afterWrites k [b] p).afterWrites (k + 1) bs rest = s.afterWrites k (b :: bs) rest := by
  simp only [State.afterWrites, Memory.writeAll, List.length_cons, List.length_nil, Nat.sub_sub, Nat.zero_add,
    Nat.add_comm bs.length]

/-- The byte writes of a LOADIN, presented to an idle block, store their bytes one a step. -/
theorem run_loadBytes {s : State} {k : Nat} {bs : List Byte} {rest : List HostInput} (hscan : s.scanning = false)
    (hb : s.status.busy = false) (hfits : k + bs.length ≤ Config.maxInLen)
    (hp : s.pending = (loadBytes k bs).map HostInput.access ++ rest) :
    Host.Core.run Sys2Proof.core bs.length s = .next (s.afterWrites k bs rest) := by
  induction bs generalizing s k with
  | nil => exact (run_zero s).trans (congrArg _ (State.afterWrites_nil hp k).symm)
  | cons b bs ih =>
    rw [List.length_cons] at hfits ⊢
    rw [loadBytes_cons (by omega), List.map_cons, List.cons_append] at hp
    have hstep : step s = .next (s.afterWrites k [b] ((loadBytes (k + 1) bs).map HostInput.access ++ rest)) :=
      (step_of_access hscan (State.engineMoves_eq_false hp (.inl hb)) hp).trans
        (congrArg _ (State.hostAccess_write1_of_idle (s := s.takeInput _) hb (by omega) b))
    rw [run_succ_next hstep, ih (s := s.afterWrites k [b] _) hscan hb (by omega) rfl, s.afterWrites_cons]

/-- Its last access stores the length. -/
theorem step_write_inLen {s : State} {rest : List HostInput} {v : Word} (hscan : s.scanning = false)
    (hb : s.status.busy = false) (hp : s.pending = .access (.write4 (regOffset .inLen) v) :: rest) :
    step s = .next { s with inLen := v.extractLsb' 0 16, pending := rest, latency := s.latency - 1 } :=
  (step_of_access hscan (State.engineMoves_eq_false hp (.inl hb)) hp).trans
    (exec_wr_of_idle (s := s.takeInput rest) hb .inLen v)

/-- The step of a LOADIN itself is its first byte write. -/
theorem step_of_loadin_cons {s : State} {b : Byte} {bs : List Byte} {rest : List HostInput} (hscan : s.scanning = false)
    (hb : s.status.busy = false) (hp : s.pending = .line (.loadin (b :: bs)) :: rest) :
    step s = .next (s.afterWrites 0 [b] ((loadBytes 1 bs).map HostInput.access ++
      .access (.write4 (regOffset .inLen) (BitVec.ofNat 32 (bs.length + 1))) :: rest)) := by
  have hmax := fifteen_le_maxInLen
  rw [step_of_line hscan (State.engineMoves_eq_false hp (.inl hb)) hp, decodeLine, exec_loadin_cons,
    State.hostAccess_write1_of_idle (s := s.takeInput rest) (k := 0) hb (by omega), List.map_append, List.append_assoc]
  rfl

/-- A LOADIN presented to an idle block runs to its last access. -/
theorem run_loadin {s : State} {bytes : List Byte} {rest : List HostInput} (hscan : s.scanning = false)
    (hb : s.status.busy = false) (hfits : bytes.length ≤ Config.maxInLen)
    (hp : s.pending = .line (.loadin bytes) :: rest) :
    ∃ l, Host.Core.run Sys2Proof.core (bytes.length + 1) s =
      .next { s with inBuf := s.inBuf.writeAll 0 bytes, pending := rest, latency := l,
                     inLen := (BitVec.ofNat 32 bytes.length).extractLsb' 0 16 } := by
  cases bytes with
  | nil =>
    have hline := step_of_line hscan (State.engineMoves_eq_false hp (.inl hb)) hp
    have hwrite := exec_wr_of_idle (s := s.takeInput rest) hb .inLen 0#32
    exact ⟨s.latency - 1, run_one_of_next (hline.trans ((exec_loadin_nil _).trans hwrite))⟩
  | cons b bs =>
    rw [List.length_cons] at hfits ⊢
    have hlength := step_write_inLen (s := s.afterWrites 0 (b :: bs) _) (rest := rest)
      (v := BitVec.ofNat 32 (bs.length + 1)) hscan hb rfl
    refine ⟨_, (run_succ_next (step_of_loadin_cons hscan hb hp) _).trans
      ((run_add_of_next ?_ 1).trans (run_one_of_next hlength))⟩
    exact (run_loadBytes (s := s.afterWrites 0 [b] _) (k := 1) (bs := bs) hscan hb (by omega) rfl).trans
      (congrArg _ (s.afterWrites_cons 0 b bs _ _))

/-- Settles O49: what the byte writes and the last access leave, read back from the buffer. -/
theorem loadinLoadsTheChunk : Obligations.LoadinLoadsTheChunk := by
  intro s bytes rest hscan hb hfits hp
  obtain ⟨l, hrun⟩ := run_loadin hscan hb hfits hp
  have hmax := maxInLen_le
  refine ⟨_, hrun, ?length, fun k hk => ?loaded, fun k hk => ?kept, rfl⟩
  case length =>
    rw [BitVec.extractLsb'_toNat, BitVec.toNat_ofNat, Nat.shiftRight_zero]
    omega
  case loaded => exact (Memory.read_writeAll _ _ _ _).trans (if_pos (by omega))
  case kept => exact (Memory.read_writeAll _ _ _ _).trans (if_neg (by omega))

end Sys2Proof.Machine
end
